-- ==== Sys2Proof/Word.lean ====
section
/-! DEFINITION. The two word types of the core (00_scope.md R6, R7): bytes for registers and memory, 16-bit words for pairs and addresses. -/

namespace Sys2Proof

/-- A byte: an 8-bit register, a memory byte, an operand byte (R7: `u8`). -/
abbrev Byte := BitVec 8

/-- A 16-bit value: a register pair, a memory address, a port address (R7: `u16`). Its arithmetic wraps modulo 65,536. -/
abbrev Word := BitVec 16

end Sys2Proof
end

