-- ==== Sys2Proof/Machine/Bits.lean ====
section
/-! DEFINITION. Byte order, bit-field and sign-extension helpers (00_scope.md R7; 20_memory.md R71). -/

namespace Sys2Proof

/-- R7: `hi(v) = v[15:8]`. -/
def hi (w : Word) : Byte := w.extractLsb' 8 8

/-- R7: `lo(v) = v[7:0]`. -/
def lo (w : Word) : Byte := w.extractLsb' 0 8

/-- R7: `h ++ l` of two bytes, `h` the more significant. -/
def word (h l : Byte) : Word := h ++ l

/-- R7: `sext_16(d)`, a byte extended with copies of its top bit. -/
def sext16 (d : Byte) : Word := d.signExtend 16

/-- A 3-bit field value as a byte, to be shifted into an opcode byte. -/
def index3 (k : Fin 8) : Byte := BitVec.ofNat 8 k.val

/-- One bit as a byte. -/
def flagBit (x : Bool) : Byte := if x then 1 else 0

/-- The mask `1 << b` of a bit number (47_bit.md). -/
def bitMask (b : Fin 8) : Byte := 1 <<< b.val

/-- R12: `parity(v)` is 1 when the number of 1 bits of `v` is even. -/
def parity (v : Byte) : Bool :=
  !(v.getLsbD 0 ^^ v.getLsbD 1 ^^ v.getLsbD 2 ^^ v.getLsbD 3 ^^ v.getLsbD 4 ^^ v.getLsbD 5 ^^ v.getLsbD 6 ^^ v.getLsbD 7)

/-- 30_encoding.md R103: `x = op[7:6]`. -/
def opX (op : Byte) : Fin 4 := Fin.ofNat 4 (op.toNat / 64)

/-- 30_encoding.md R103: `y = op[5:3]`. -/
def opY (op : Byte) : Fin 8 := Fin.ofNat 8 (op.toNat / 8)

/-- 30_encoding.md R103: `z = op[2:0]`. -/
def opZ (op : Byte) : Fin 8 := Fin.ofNat 8 op.toNat

/-- 30_encoding.md R103: `p = op[5:4]`. -/
def opP (op : Byte) : Fin 4 := Fin.ofNat 4 (op.toNat / 16)

/-- 30_encoding.md R103: `q = op[3]`. -/
def opQ (op : Byte) : Bool := op.getLsbD 3

end Sys2Proof
end

