-- ==== Sys2Proof/Syntax.lean ====
section
/-! DEFINITION. The instructions: one constructor of `Instr` for each mnemonic of spec/opcode_table.json. Rows of the table that share a mnemonic
(the DD and the FD row of one form) are one constructor that carries the prefix as an operand. -/

namespace Sys2Proof

/-- 30_encoding.md R104, table `r8` without index 6: an 8-bit register named by an instruction. -/
inductive Reg8
  | b | c | d | e | h | l | a
  deriving DecidableEq, Repr

/-- R104, table `rp`: a register pair with SP (written dd or ss). -/
inductive RegPair
  | bc | de | hl | sp
  deriving DecidableEq, Repr

/-- R104, table `rp2`: a register pair with AF (written qq). -/
inductive StackPair
  | bc | de | hl | af
  deriving DecidableEq, Repr

/-- R104, table `cc`: a condition. -/
inductive Cond
  | nz | z | nc | c | po | pe | p | m
  deriving DecidableEq, Repr

/-- R104: the four conditions of `JR cc,e`. -/
inductive JrCond
  | nz | z | nc | c
  deriving DecidableEq, Repr

/-- R110: the governing index prefix, DD (IX) or FD (IY). -/
inductive IndexReg
  | ix | iy
  deriving DecidableEq, Repr

/-- R110 b: a half of the index register (XYH or XYL). -/
inductive Half
  | high | low
  deriving DecidableEq, Repr

/-- 45_alu16.md R311: the second operand of `ADD XY,pp`. -/
inductive IndexPair
  | bc | de | xy | sp
  deriving DecidableEq, Repr

/-- 40_load8.md R168: an operand of `LD q,q'`: a plain register other than H and L, or a half of the index register. -/
inductive HalfReg
  | b | c | d | e | xyh | xyl | a
  deriving DecidableEq, Repr

/-- The instructions and prefix rows of spec/opcode_table.json, in the table's order but for `nop`, which stands last
(Lean compiles a constructor with fields only below index 244). The docstring of a constructor gives its assembler form and its rule.
The prefix rows and `baseRedundant` are the units a step passes before the instruction they lead to (R102, R111; log 15).
Encoding bits that change nothing are operands that no meaning reads (log 17). -/
inductive Instr
  /-- EX AF,AF' (R201). -/
  | exAfAf
  /-- DJNZ e (R406). -/
  | djnz (e : Byte)
  /-- JR e (R402). -/
  | jr (e : Byte)
  /-- JR cc,e (R403). -/
  | jrCc (cc : JrCond) (e : Byte)
  /-- LD dd,nn (R180). -/
  | ldDdNn (dd : RegPair) (nn : Word)
  /-- ADD HL,ss (R310). -/
  | addHlSs (ss : RegPair)
  /-- LD (BC),A (R161). -/
  | ldMemBcA
  /-- LD (DE),A (R162). -/
  | ldMemDeA
  /-- LD (nn),HL (R185). -/
  | ldMemNnHl (nn : Word)
  /-- LD (nn),A (R163). -/
  | ldMemNnA (nn : Word)
  /-- LD A,(BC) (R158). -/
  | ldAMemBc
  /-- LD A,(DE) (R159). -/
  | ldAMemDe
  /-- LD HL,(nn) (R182). -/
  | ldHlMemNn (nn : Word)
  /-- LD A,(nn) (R160). -/
  | ldAMemNn (nn : Word)
  /-- INC ss (R314). -/
  | incSs (ss : RegPair)
  /-- DEC ss (R316). -/
  | decSs (ss : RegPair)
  /-- INC r (R270). -/
  | incR (r : Reg8)
  /-- INC (HL) (R271). -/
  | incMemHl
  /-- DEC r (R274). -/
  | decR (r : Reg8)
  /-- DEC (HL) (R275). -/
  | decMemHl
  /-- LD r,n (R151). -/
  | ldRN (r : Reg8) (n : Byte)
  /-- LD (HL),n (R156). -/
  | ldMemHlN (n : Byte)
  /-- RLCA (R331). -/
  | rlca
  /-- RRCA (R332). -/
  | rrca
  /-- RLA (R333). -/
  | rla
  /-- RRA (R334). -/
  | rra
  /-- DAA (R290). -/
  | daa
  /-- CPL (R291). -/
  | cpl
  /-- SCF (R295). -/
  | scf
  /-- CCF (R294). -/
  | ccf
  /-- LD r,r' (R150). -/
  | ldRR (r : Reg8) (r' : Reg8)
  /-- LD r,(HL) (R152). -/
  | ldRMemHl (r : Reg8)
  /-- LD (HL),r (R154). -/
  | ldMemHlR (r : Reg8)
  /-- HALT (R296). -/
  | halt
  /-- ADD A,r (R230). -/
  | addAR (r : Reg8)
  /-- ADD A,(HL) (R232). -/
  | addAMemHl
  /-- ADD A,n (R231). -/
  | addAN (n : Byte)
  /-- ADC A,r (R235). -/
  | adcAR (r : Reg8)
  /-- ADC A,(HL) (R237). -/
  | adcAMemHl
  /-- ADC A,n (R236). -/
  | adcAN (n : Byte)
  /-- SUB r (R240). -/
  | subR (r : Reg8)
  /-- SUB (HL) (R242). -/
  | subMemHl
  /-- SUB n (R241). -/
  | subN (n : Byte)
  /-- SBC A,r (R245). -/
  | sbcAR (r : Reg8)
  /-- SBC A,(HL) (R247). -/
  | sbcAMemHl
  /-- SBC A,n (R246). -/
  | sbcAN (n : Byte)
  /-- AND r (R250). -/
  | andR (r : Reg8)
  /-- AND (HL) (R252). -/
  | andMemHl
  /-- AND n (R251). -/
  | andN (n : Byte)
  /-- XOR r (R255). -/
  | xorR (r : Reg8)
  /-- XOR (HL) (R257). -/
  | xorMemHl
  /-- XOR n (R256). -/
  | xorN (n : Byte)
  /-- OR r (R260). -/
  | orR (r : Reg8)
  /-- OR (HL) (R262). -/
  | orMemHl
  /-- OR n (R261). -/
  | orN (n : Byte)
  /-- CP r (R265). -/
  | cpR (r : Reg8)
  /-- CP (HL) (R267). -/
  | cpMemHl
  /-- CP n (R266). -/
  | cpN (n : Byte)
  /-- RET cc (R410). -/
  | retCc (cc : Cond)
  /-- POP qq (R192). -/
  | popQq (qq : StackPair)
  /-- RET (R409). -/
  | ret
  /-- EXX (R202). -/
  | exx
  /-- JP (HL) (R404). -/
  | jpHl
  /-- LD SP,HL (R188). -/
  | ldSpHl
  /-- JP cc,nn (R401). -/
  | jpCcNn (cc : Cond) (nn : Word)
  /-- JP nn (R400). -/
  | jpNn (nn : Word)
  /-- OUT (n),A (R431). -/
  | outNA (n : Byte)
  /-- IN A,(n) (R430). -/
  | inAN (n : Byte)
  /-- EX (SP),HL (R203). -/
  | exMemSpHl
  /-- EX DE,HL (R200). -/
  | exDeHl
  /-- DI (R298). -/
  | di
  /-- EI (R299). -/
  | ei
  /-- CALL cc,nn (R408). -/
  | callCcNn (cc : Cond) (nn : Word)
  /-- PUSH qq (R190). -/
  | pushQq (qq : StackPair)
  /-- CALL nn (R407). -/
  | callNn (nn : Word)
  /-- RST p, p = 8 * t (R413). -/
  | rst (t : Fin 8)
  /-- the byte CB read as a prefix: with no DD/FD before it, it selects the CB space (R102); after DD or FD, the DDCB or FDCB space (R114). -/
  | prefixCB (before : Option IndexReg)
  /-- the byte DD read as a prefix (R102); `before` is the DD/FD prefix it makes redundant, if there is one (R111 a). -/
  | prefixDD (before : Option IndexReg)
  /-- the byte ED read as a prefix: it selects the ED space (R102); `before` is the DD/FD prefix it makes redundant, if there is one (R111 c). -/
  | prefixED (before : Option IndexReg)
  /-- the byte FD read as a prefix (R102); `before` is the DD/FD prefix it makes redundant, if there is one (R111 a). -/
  | prefixFD (before : Option IndexReg)
  /-- RLC r (R335). -/
  | rlcR (r : Reg8)
  /-- RLC (HL) (R336). -/
  | rlcMemHl
  /-- RRC r (R338). -/
  | rrcR (r : Reg8)
  /-- RRC (HL) (R339). -/
  | rrcMemHl
  /-- RL r (R341). -/
  | rlR (r : Reg8)
  /-- RL (HL) (R342). -/
  | rlMemHl
  /-- RR r (R344). -/
  | rrR (r : Reg8)
  /-- RR (HL) (R345). -/
  | rrMemHl
  /-- SLA r (R347). -/
  | slaR (r : Reg8)
  /-- SLA (HL) (R348). -/
  | slaMemHl
  /-- SRA r (R350). -/
  | sraR (r : Reg8)
  /-- SRA (HL) (R351). -/
  | sraMemHl
  /-- SLL r (R353). -/
  | sllR (r : Reg8)
  /-- SLL (HL) (R354). -/
  | sllMemHl
  /-- SRL r (R356). -/
  | srlR (r : Reg8)
  /-- SRL (HL) (R357). -/
  | srlMemHl
  /-- BIT b,r (R381). -/
  | bitBR (b : Fin 8) (r : Reg8)
  /-- BIT b,(HL) (R382). -/
  | bitBMemHl (b : Fin 8)
  /-- RES b,r (R387). -/
  | resBR (b : Fin 8) (r : Reg8)
  /-- RES b,(HL) (R388). -/
  | resBMemHl (b : Fin 8)
  /-- SET b,r (R384). -/
  | setBR (b : Fin 8) (r : Reg8)
  /-- SET b,(HL) (R385). -/
  | setBMemHl (b : Fin 8)
  /-- IN r,(C) (R432). -/
  | inRC (r : Reg8)
  /-- IN (C) (R433). -/
  | inC
  /-- OUT (C),r (R434). -/
  | outCR (r : Reg8)
  /-- OUT (C),0 (R435). -/
  | outC0
  /-- SBC HL,ss (R313). -/
  | sbcHlSs (ss : RegPair)
  /-- ADC HL,ss (R312). -/
  | adcHlSs (ss : RegPair)
  /-- LD (nn),dd (R186). -/
  | ldMemNnDd (dd : RegPair) (nn : Word)
  /-- LD dd,(nn) (R183). -/
  | ldDdMemNn (dd : RegPair) (nn : Word)
  /-- NEG (R293); y = 0 is the documented encoding, the others its duplicates. -/
  | neg (y : Fin 8)
  /-- RETN (R412); y = 0 is the documented encoding, y = 1 is RETI, the others duplicates. -/
  | retn (y : Fin 8)
  /-- RETI (R411). -/
  | reti
  /-- IM 0 (R300); x5 and x3 are the two ignored bits of the opcode byte. -/
  | im0 (x5 : Bool) (x3 : Bool)
  /-- IM 1 (R301); x5 is the ignored bit of the opcode byte. -/
  | im1 (x5 : Bool)
  /-- IM 2 (R302); x5 is the ignored bit of the opcode byte. -/
  | im2 (x5 : Bool)
  /-- LD I,A (R166). -/
  | ldIA
  /-- LD R,A (R167). -/
  | ldRA
  /-- LD A,I (R164). -/
  | ldAI
  /-- LD A,R (R165). -/
  | ldAR
  /-- RRD (R361). -/
  | rrd
  /-- RLD (R360). -/
  | rld
  /-- LDI (R205). -/
  | ldi
  /-- CPI (R209). -/
  | cpi
  /-- INI (R436). -/
  | ini
  /-- OUTI (R440). -/
  | outi
  /-- LDD (R207). -/
  | ldd
  /-- CPD (R211). -/
  | cpd
  /-- IND (R438). -/
  | ind
  /-- OUTD (R442). -/
  | outd
  /-- LDIR (R206). -/
  | ldir
  /-- CPIR (R210). -/
  | cpir
  /-- INIR (R437). -/
  | inir
  /-- OTIR (R441). -/
  | otir
  /-- LDDR (R208). -/
  | lddr
  /-- CPDR (R212). -/
  | cpdr
  /-- INDR (R439). -/
  | indr
  /-- OTDR (R443). -/
  | otdr
  /-- an undefined ED opcode, a no-operation (R116, R303). -/
  | nopEd (op : Byte)
  /-- ADD IX,pp (R311). -/
  | addIxPp (pp : IndexPair)
  /-- ADD IY,pp (R311). -/
  | addIyPp (pp : IndexPair)
  /-- LD IX,nn (R181). -/
  | ldIxNn (nn : Word)
  /-- LD IY,nn (R181). -/
  | ldIyNn (nn : Word)
  /-- LD (nn),IX (R187). -/
  | ldMemNnIx (nn : Word)
  /-- LD (nn),IY (R187). -/
  | ldMemNnIy (nn : Word)
  /-- INC IX (R315). -/
  | incIx
  /-- INC IY (R315). -/
  | incIy
  /-- INC p, p a half of IX or IY (R273). -/
  | incP (xy : IndexReg) (p : Half)
  /-- DEC p (R277). -/
  | decP (xy : IndexReg) (p : Half)
  /-- LD p,n (R169). -/
  | ldPN (xy : IndexReg) (p : Half) (n : Byte)
  /-- LD IX,(nn) (R184). -/
  | ldIxMemNn (nn : Word)
  /-- LD IY,(nn) (R184). -/
  | ldIyMemNn (nn : Word)
  /-- DEC IX (R317). -/
  | decIx
  /-- DEC IY (R317). -/
  | decIy
  /-- INC (IX+d) (R272). -/
  | incMemIx (d : Byte)
  /-- INC (IY+d) (R272). -/
  | incMemIy (d : Byte)
  /-- DEC (IX+d) (R276). -/
  | decMemIx (d : Byte)
  /-- DEC (IY+d) (R276). -/
  | decMemIy (d : Byte)
  /-- LD (IX+d),n (R157). -/
  | ldMemIxN (d : Byte) (n : Byte)
  /-- LD (IY+d),n (R157). -/
  | ldMemIyN (d : Byte) (n : Byte)
  /-- LD q,q' with at least one half of IX or IY (R168). -/
  | ldQQ (xy : IndexReg) (q : HalfReg) (q' : HalfReg)
  /-- LD r,(IX+d) (R153). -/
  | ldRMemIx (r : Reg8) (d : Byte)
  /-- LD r,(IY+d) (R153). -/
  | ldRMemIy (r : Reg8) (d : Byte)
  /-- LD (IX+d),r (R155). -/
  | ldMemIxR (d : Byte) (r : Reg8)
  /-- LD (IY+d),r (R155). -/
  | ldMemIyR (d : Byte) (r : Reg8)
  /-- ADD A,p (R234). -/
  | addAP (xy : IndexReg) (p : Half)
  /-- ADD A,(IX+d) (R233). -/
  | addAMemIx (d : Byte)
  /-- ADD A,(IY+d) (R233). -/
  | addAMemIy (d : Byte)
  /-- ADC A,p (R239). -/
  | adcAP (xy : IndexReg) (p : Half)
  /-- ADC A,(IX+d) (R238). -/
  | adcAMemIx (d : Byte)
  /-- ADC A,(IY+d) (R238). -/
  | adcAMemIy (d : Byte)
  /-- SUB p (R244). -/
  | subP (xy : IndexReg) (p : Half)
  /-- SUB (IX+d) (R243). -/
  | subMemIx (d : Byte)
  /-- SUB (IY+d) (R243). -/
  | subMemIy (d : Byte)
  /-- SBC A,p (R249). -/
  | sbcAP (xy : IndexReg) (p : Half)
  /-- SBC A,(IX+d) (R248). -/
  | sbcAMemIx (d : Byte)
  /-- SBC A,(IY+d) (R248). -/
  | sbcAMemIy (d : Byte)
  /-- AND p (R254). -/
  | andP (xy : IndexReg) (p : Half)
  /-- AND (IX+d) (R253). -/
  | andMemIx (d : Byte)
  /-- AND (IY+d) (R253). -/
  | andMemIy (d : Byte)
  /-- XOR p (R259). -/
  | xorP (xy : IndexReg) (p : Half)
  /-- XOR (IX+d) (R258). -/
  | xorMemIx (d : Byte)
  /-- XOR (IY+d) (R258). -/
  | xorMemIy (d : Byte)
  /-- OR p (R264). -/
  | orP (xy : IndexReg) (p : Half)
  /-- OR (IX+d) (R263). -/
  | orMemIx (d : Byte)
  /-- OR (IY+d) (R263). -/
  | orMemIy (d : Byte)
  /-- CP p (R269). -/
  | cpP (xy : IndexReg) (p : Half)
  /-- CP (IX+d) (R268). -/
  | cpMemIx (d : Byte)
  /-- CP (IY+d) (R268). -/
  | cpMemIy (d : Byte)
  /-- POP IX (R193). -/
  | popIx
  /-- POP IY (R193). -/
  | popIy
  /-- EX (SP),IX (R204). -/
  | exMemSpIx
  /-- EX (SP),IY (R204). -/
  | exMemSpIy
  /-- PUSH IX (R191). -/
  | pushIx
  /-- PUSH IY (R191). -/
  | pushIy
  /-- JP (IX) (R405). -/
  | jpIx
  /-- JP (IY) (R405). -/
  | jpIy
  /-- LD SP,IX (R189). -/
  | ldSpIx
  /-- LD SP,IY (R189). -/
  | ldSpIy
  /-- a DD or FD prefix made redundant by a following opcode byte that it does not change (R111 b); it has no byte of its own, the base-space instruction follows. -/
  | baseRedundant (xy : IndexReg)
  /-- RLC (IX+d) (R337). -/
  | rlcMemIx (d : Byte)
  /-- RLC (IY+d) (R337). -/
  | rlcMemIy (d : Byte)
  /-- RLC (IX+d),r (R337). -/
  | rlcMemIxR (d : Byte) (r : Reg8)
  /-- RLC (IY+d),r (R337). -/
  | rlcMemIyR (d : Byte) (r : Reg8)
  /-- RRC (IX+d) (R340). -/
  | rrcMemIx (d : Byte)
  /-- RRC (IY+d) (R340). -/
  | rrcMemIy (d : Byte)
  /-- RRC (IX+d),r (R340). -/
  | rrcMemIxR (d : Byte) (r : Reg8)
  /-- RRC (IY+d),r (R340). -/
  | rrcMemIyR (d : Byte) (r : Reg8)
  /-- RL (IX+d) (R343). -/
  | rlMemIx (d : Byte)
  /-- RL (IY+d) (R343). -/
  | rlMemIy (d : Byte)
  /-- RL (IX+d),r (R343). -/
  | rlMemIxR (d : Byte) (r : Reg8)
  /-- RL (IY+d),r (R343). -/
  | rlMemIyR (d : Byte) (r : Reg8)
  /-- RR (IX+d) (R346). -/
  | rrMemIx (d : Byte)
  /-- RR (IY+d) (R346). -/
  | rrMemIy (d : Byte)
  /-- RR (IX+d),r (R346). -/
  | rrMemIxR (d : Byte) (r : Reg8)
  /-- RR (IY+d),r (R346). -/
  | rrMemIyR (d : Byte) (r : Reg8)
  /-- SLA (IX+d) (R349). -/
  | slaMemIx (d : Byte)
  /-- SLA (IY+d) (R349). -/
  | slaMemIy (d : Byte)
  /-- SLA (IX+d),r (R349). -/
  | slaMemIxR (d : Byte) (r : Reg8)
  /-- SLA (IY+d),r (R349). -/
  | slaMemIyR (d : Byte) (r : Reg8)
  /-- SRA (IX+d) (R352). -/
  | sraMemIx (d : Byte)
  /-- SRA (IY+d) (R352). -/
  | sraMemIy (d : Byte)
  /-- SRA (IX+d),r (R352). -/
  | sraMemIxR (d : Byte) (r : Reg8)
  /-- SRA (IY+d),r (R352). -/
  | sraMemIyR (d : Byte) (r : Reg8)
  /-- SLL (IX+d) (R355). -/
  | sllMemIx (d : Byte)
  /-- SLL (IY+d) (R355). -/
  | sllMemIy (d : Byte)
  /-- SLL (IX+d),r (R355). -/
  | sllMemIxR (d : Byte) (r : Reg8)
  /-- SLL (IY+d),r (R355). -/
  | sllMemIyR (d : Byte) (r : Reg8)
  /-- SRL (IX+d) (R358). -/
  | srlMemIx (d : Byte)
  /-- SRL (IY+d) (R358). -/
  | srlMemIy (d : Byte)
  /-- SRL (IX+d),r (R358). -/
  | srlMemIxR (d : Byte) (r : Reg8)
  /-- SRL (IY+d),r (R358). -/
  | srlMemIyR (d : Byte) (r : Reg8)
  /-- BIT b,(IX+d) (R383). -/
  | bitBMemIx (b : Fin 8) (d : Byte)
  /-- BIT b,(IY+d) (R383). -/
  | bitBMemIy (b : Fin 8) (d : Byte)
  /-- BIT b,(IX+d), the undocumented duplicates with z other than 6; z is ignored (R383). -/
  | bitBMemIxZ (b : Fin 8) (d : Byte) (z : Reg8)
  /-- BIT b,(IY+d), the undocumented duplicates with z other than 6; z is ignored (R383). -/
  | bitBMemIyZ (b : Fin 8) (d : Byte) (z : Reg8)
  /-- RES b,(IX+d) (R389). -/
  | resBMemIx (b : Fin 8) (d : Byte)
  /-- RES b,(IY+d) (R389). -/
  | resBMemIy (b : Fin 8) (d : Byte)
  /-- RES b,(IX+d),r (R389). -/
  | resBMemIxR (b : Fin 8) (d : Byte) (r : Reg8)
  /-- RES b,(IY+d),r (R389). -/
  | resBMemIyR (b : Fin 8) (d : Byte) (r : Reg8)
  /-- SET b,(IX+d) (R386). -/
  | setBMemIx (b : Fin 8) (d : Byte)
  /-- SET b,(IY+d) (R386). -/
  | setBMemIy (b : Fin 8) (d : Byte)
  /-- SET b,(IX+d),r (R386). -/
  | setBMemIxR (b : Fin 8) (d : Byte) (r : Reg8)
  /-- SET b,(IY+d),r (R386). -/
  | setBMemIyR (b : Fin 8) (d : Byte) (r : Reg8)
  /-- NOP (R292). -/
  | nop
  deriving DecidableEq, Repr

end Sys2Proof
end

