-- ==== Sys2Proof/WellFormed.lean ====
section
/-! DEFINITION. Which terms of `Instr` are instructions of the machine: the operand values a row of spec/opcode_table.json excludes, and the
rows that are only the beginning of an instruction (30_encoding.md R102, R111). Every other operand has a type that admits exactly the values the row admits. -/

namespace Sys2Proof

/-- 40_load8.md R168: the operand is a half of the index register. -/
def HalfReg.isHalf : HalfReg → Bool
  | .xyh => true
  | .xyl => true
  | _ => false

/-- 30_encoding.md R116: the 178 undefined opcodes of the ED space, 0x00-0x3F, 0x77, 0x7F, 0x80-0x9F, 0xA4-0xA7, 0xAC-0xAF, 0xB4-0xB7, 0xBC-0xBF, 0xC0-0xFF. -/
def edUndefined (op : Byte) : Bool :=
  op.toNat < 0x40 || op == 0x77 || op == 0x7F || (0x80 ≤ op.toNat && op.toNat < 0xA0) ||
  (0xA4 ≤ op.toNat && op.toNat < 0xA8) || (0xAC ≤ op.toNat && op.toNat < 0xB0) ||
  (0xB4 ≤ op.toNat && op.toNat < 0xB8) || 0xBC ≤ op.toNat && op.toNat < 0xC0 || 0xC0 ≤ op.toNat

/-- The term is one whole instruction of the machine. `RETN` with y = 1 is `RETI` (R412); `LD q,q'` names at least one half (R168);
the ED no-operations are the cells of R116; a prefix row or a redundant prefix is only the beginning of an instruction (R102, R111). -/
def Instr.wellFormed : Instr → Bool
  | .retn y => y != 1
  | .nopEd op => edUndefined op
  | .ldQQ _ q q' => q.isHalf || q'.isHalf
  | .prefixCB _ => false
  | .prefixDD _ => false
  | .prefixED _ => false
  | .prefixFD _ => false
  | .baseRedundant _ => false
  | _ => true

end Sys2Proof
end

