-- ==== Sys2Proof/Decode.lean ====
section
/-! DEFINITION. The decoder (30_encoding.md R102, R109 to R116), total on any bytes, and the encoder written from the opcode patterns of
the instruction rules. A step is decoded as the list of prefix rows it passes and the one instruction they lead to (log 15). -/

namespace Sys2Proof

/-- The one way a list of bytes is not an instruction: it ends before the instruction does. No encoding is illegal (R118). -/
inductive DecodeError
  /-- The bytes end inside an instruction; in memory this happens only for an endless run of DD/FD prefixes (R120). -/
  | incomplete
  deriving DecidableEq, Repr

/-- What one step executes: the prefix rows passed (each with its own meaning), the governed instruction, how many bytes they take,
and how many of those bytes, counted from the first, are opcode fetches (00_scope.md R10; the others are read without counting in R). -/
structure Decoded where
  prefixes : List Instr
  instr    : Instr
  len      : Nat
  m1       : Nat
  deriving DecidableEq, Repr

/-! ## The field tables of R104 -/

/-- R104, table `r8`; index 6 is a memory operand. -/
def Reg8.ofIndex (k : Fin 8) : Option Reg8 :=
  match k with
  | 0 => some .b | 1 => some .c | 2 => some .d | 3 => some .e | 4 => some .h | 5 => some .l | 6 => none | 7 => some .a

/-- The index of a register in table `r8`. -/
def Reg8.code : Reg8 → Byte
  | .b => 0 | .c => 1 | .d => 2 | .e => 3 | .h => 4 | .l => 5 | .a => 7

/-- R104, table `rp`. -/
def RegPair.ofIndex (k : Fin 4) : RegPair :=
  match k with
  | 0 => .bc | 1 => .de | 2 => .hl | 3 => .sp

/-- The index of a pair in table `rp`. -/
def RegPair.code : RegPair → Byte
  | .bc => 0 | .de => 1 | .hl => 2 | .sp => 3

/-- R104, table `rp2`. -/
def StackPair.ofIndex (k : Fin 4) : StackPair :=
  match k with
  | 0 => .bc | 1 => .de | 2 => .hl | 3 => .af

/-- The index of a pair in table `rp2`. -/
def StackPair.code : StackPair → Byte
  | .bc => 0 | .de => 1 | .hl => 2 | .af => 3

/-- 45_alu16.md R311: `pp = BC, DE, XY, SP`. -/
def IndexPair.ofIndex (k : Fin 4) : IndexPair :=
  match k with
  | 0 => .bc | 1 => .de | 2 => .xy | 3 => .sp

/-- The index of a pair `pp`. -/
def IndexPair.code : IndexPair → Byte
  | .bc => 0 | .de => 1 | .xy => 2 | .sp => 3

/-- R104, table `cc`. -/
def Cond.ofIndex (k : Fin 8) : Cond :=
  match k with
  | 0 => .nz | 1 => .z | 2 => .nc | 3 => .c | 4 => .po | 5 => .pe | 6 => .p | 7 => .m

/-- The index of a condition in table `cc`. -/
def Cond.code : Cond → Byte
  | .nz => 0 | .z => 1 | .nc => 2 | .c => 3 | .po => 4 | .pe => 5 | .p => 6 | .m => 7

/-- The index of a condition of `JR cc,e`, in `op[4:3]` (R104). -/
def JrCond.code : JrCond → Byte
  | .nz => 0 | .z => 1 | .nc => 2 | .c => 3

/-- 40_load8.md R168: `q = [B, C, D, E, XYH, XYL, -, A]`. -/
def HalfReg.ofIndex (k : Fin 8) : Option HalfReg :=
  match k with
  | 0 => some .b | 1 => some .c | 2 => some .d | 3 => some .e | 4 => some .xyh | 5 => some .xyl | 6 => none | 7 => some .a

/-- The index of an operand of `LD q,q'`. -/
def HalfReg.code : HalfReg → Byte
  | .b => 0 | .c => 1 | .d => 2 | .e => 3 | .xyh => 4 | .xyl => 5 | .a => 7

/-- R110 b: index 4 names XYH, index 5 XYL. -/
def Half.ofIndex (k : Fin 8) : Option Half :=
  match k with
  | 4 => some .high | 5 => some .low | _ => none

/-- What a half adds to an opcode whose operand field holds 4 for XYH: 0 for XYH, 1 for XYL. -/
def Half.code : Half → Byte
  | .high => 0 | .low => 1

/-- R105: the prefix byte P of an index register. -/
def IndexReg.byte : IndexReg → Byte
  | .ix => 0xDD | .iy => 0xFD

/-- The prefix row of an index register's prefix byte, with the prefix it makes redundant. -/
def IndexReg.prefixUnit : IndexReg → Option IndexReg → Instr
  | .ix, before => .prefixDD before
  | .iy, before => .prefixFD before

/-! ## The opcode spaces. Each takes the opcode byte and the two bytes after it, and gives the instruction with the number of operand bytes it takes. -/

/-- R104, table `alu`, with a register operand. -/
def aluR (y : Fin 8) (r : Reg8) : Instr :=
  match y with
  | 0 => .addAR r | 1 => .adcAR r | 2 => .subR r | 3 => .sbcAR r | 4 => .andR r | 5 => .xorR r | 6 => .orR r | 7 => .cpR r

/-- R104, table `alu`, with the operand `(HL)`. -/
def aluMemHl (y : Fin 8) : Instr :=
  match y with
  | 0 => .addAMemHl | 1 => .adcAMemHl | 2 => .subMemHl | 3 => .sbcAMemHl | 4 => .andMemHl | 5 => .xorMemHl | 6 => .orMemHl | 7 => .cpMemHl

/-- R104, table `alu`, with an immediate. -/
def aluN (y : Fin 8) (n : Byte) : Instr :=
  match y with
  | 0 => .addAN n | 1 => .adcAN n | 2 => .subN n | 3 => .sbcAN n | 4 => .andN n | 5 => .xorN n | 6 => .orN n | 7 => .cpN n

/-- R109, x = 0. -/
def decodeBase0 (op b1 b2 : Byte) : Instr × Nat :=
  let y := opY op
  let pair := RegPair.ofIndex (opP op)
  match opZ op with
  | 0 =>
    match y with
    | 0 => (.nop, 0)
    | 1 => (.exAfAf, 0)
    | 2 => (.djnz b1, 1)
    | 3 => (.jr b1, 1)
    | 4 => (.jrCc .nz b1, 1)
    | 5 => (.jrCc .z b1, 1)
    | 6 => (.jrCc .nc b1, 1)
    | 7 => (.jrCc .c b1, 1)
  | 1 => if opQ op then (.addHlSs pair, 0) else (.ldDdNn pair (word b2 b1), 2)
  | 2 =>
    match y with
    | 0 => (.ldMemBcA, 0)
    | 1 => (.ldAMemBc, 0)
    | 2 => (.ldMemDeA, 0)
    | 3 => (.ldAMemDe, 0)
    | 4 => (.ldMemNnHl (word b2 b1), 2)
    | 5 => (.ldHlMemNn (word b2 b1), 2)
    | 6 => (.ldMemNnA (word b2 b1), 2)
    | 7 => (.ldAMemNn (word b2 b1), 2)
  | 3 => if opQ op then (.decSs pair, 0) else (.incSs pair, 0)
  | 4 => match Reg8.ofIndex y with | some r => (.incR r, 0) | none => (.incMemHl, 0)
  | 5 => match Reg8.ofIndex y with | some r => (.decR r, 0) | none => (.decMemHl, 0)
  | 6 => match Reg8.ofIndex y with | some r => (.ldRN r b1, 1) | none => (.ldMemHlN b1, 1)
  | 7 =>
    match y with
    | 0 => (.rlca, 0) | 1 => (.rrca, 0) | 2 => (.rla, 0) | 3 => (.rra, 0)
    | 4 => (.daa, 0) | 5 => (.cpl, 0) | 6 => (.scf, 0) | 7 => (.ccf, 0)

/-- R109, x = 3. -/
def decodeBase3 (op b1 b2 : Byte) : Instr × Nat :=
  let y := opY op
  match opZ op with
  | 0 => (.retCc (Cond.ofIndex y), 0)
  | 1 =>
    if opQ op then
      match opP op with
      | 0 => (.ret, 0) | 1 => (.exx, 0) | 2 => (.jpHl, 0) | 3 => (.ldSpHl, 0)
    else (.popQq (StackPair.ofIndex (opP op)), 0)
  | 2 => (.jpCcNn (Cond.ofIndex y) (word b2 b1), 2)
  | 3 =>
    match y with
    | 0 => (.jpNn (word b2 b1), 2)
    | 1 => (.prefixCB none, 0)
    | 2 => (.outNA b1, 1)
    | 3 => (.inAN b1, 1)
    | 4 => (.exMemSpHl, 0)
    | 5 => (.exDeHl, 0)
    | 6 => (.di, 0)
    | 7 => (.ei, 0)
  | 4 => (.callCcNn (Cond.ofIndex y) (word b2 b1), 2)
  | 5 =>
    if opQ op then
      match opP op with
      | 0 => (.callNn (word b2 b1), 2) | 1 => (.prefixDD none, 0) | 2 => (.prefixED none, 0) | 3 => (.prefixFD none, 0)
    else (.pushQq (StackPair.ofIndex (opP op)), 0)
  | 6 => (aluN y b1, 1)
  | 7 => (.rst y, 0)

/-- R109: the base space, all 256 bytes, the four prefix bytes among them. -/
def decodeBase (op b1 b2 : Byte) : Instr × Nat :=
  match opX op with
  | 0 => decodeBase0 op b1 b2
  | 1 =>
    match Reg8.ofIndex (opY op), Reg8.ofIndex (opZ op) with
    | some r, some r' => (.ldRR r r', 0)
    | some r, none => (.ldRMemHl r, 0)
    | none, some r => (.ldMemHlR r, 0)
    | none, none => (.halt, 0)
  | 2 => match Reg8.ofIndex (opZ op) with | some r => (aluR (opY op) r, 0) | none => (aluMemHl (opY op), 0)
  | 3 => decodeBase3 op b1 b2

/-- R104, table `rot`, with a register operand (R113). -/
def rotR (y : Fin 8) (r : Reg8) : Instr :=
  match y with
  | 0 => .rlcR r | 1 => .rrcR r | 2 => .rlR r | 3 => .rrR r | 4 => .slaR r | 5 => .sraR r | 6 => .sllR r | 7 => .srlR r

/-- R104, table `rot`, with the operand `(HL)` (R113). -/
def rotMemHl (y : Fin 8) : Instr :=
  match y with
  | 0 => .rlcMemHl | 1 => .rrcMemHl | 2 => .rlMemHl | 3 => .rrMemHl | 4 => .slaMemHl | 5 => .sraMemHl | 6 => .sllMemHl | 7 => .srlMemHl

/-- R113: the CB space, all 256 bytes. -/
def decodeCB (op : Byte) : Instr :=
  match opX op, Reg8.ofIndex (opZ op) with
  | 0, some r => rotR (opY op) r
  | 0, none => rotMemHl (opY op)
  | 1, some r => .bitBR (opY op) r
  | 1, none => .bitBMemHl (opY op)
  | 2, some r => .resBR (opY op) r
  | 2, none => .resBMemHl (opY op)
  | 3, some r => .setBR (opY op) r
  | 3, none => .setBMemHl (opY op)

/-- R115, x = 1. -/
def decodeED1 (op b1 b2 : Byte) : Instr × Nat :=
  let y := opY op
  let pair := RegPair.ofIndex (opP op)
  match opZ op with
  | 0 => match Reg8.ofIndex y with | some r => (.inRC r, 0) | none => (.inC, 0)
  | 1 => match Reg8.ofIndex y with | some r => (.outCR r, 0) | none => (.outC0, 0)
  | 2 => if opQ op then (.adcHlSs pair, 0) else (.sbcHlSs pair, 0)
  | 3 => if opQ op then (.ldDdMemNn pair (word b2 b1), 2) else (.ldMemNnDd pair (word b2 b1), 2)
  | 4 => (.neg y, 0)
  | 5 => if y = 1 then (.reti, 0) else (.retn y, 0)
  | 6 =>
    match y with
    | 0 => (.im0 false false, 0) | 1 => (.im0 false true, 0) | 2 => (.im1 false, 0) | 3 => (.im2 false, 0)
    | 4 => (.im0 true false, 0) | 5 => (.im0 true true, 0) | 6 => (.im1 true, 0) | 7 => (.im2 true, 0)
  | 7 =>
    match y with
    | 0 => (.ldIA, 0) | 1 => (.ldRA, 0) | 2 => (.ldAI, 0) | 3 => (.ldAR, 0)
    | 4 => (.rrd, 0) | 5 => (.rld, 0) | 6 => (.nopEd op, 0) | 7 => (.nopEd op, 0)

/-- R115, x = 2: the block instructions; the other cells are no-operations (R116). -/
def decodeED2 (op : Byte) : Instr :=
  match opY op, opZ op with
  | 4, 0 => .ldi | 4, 1 => .cpi | 4, 2 => .ini | 4, 3 => .outi
  | 5, 0 => .ldd | 5, 1 => .cpd | 5, 2 => .ind | 5, 3 => .outd
  | 6, 0 => .ldir | 6, 1 => .cpir | 6, 2 => .inir | 6, 3 => .otir
  | 7, 0 => .lddr | 7, 1 => .cpdr | 7, 2 => .indr | 7, 3 => .otdr
  | _, _ => .nopEd op

/-- R115, R116: the ED space, all 256 bytes. -/
def decodeED (op b1 b2 : Byte) : Instr × Nat :=
  match opX op with
  | 1 => decodeED1 op b1 b2
  | 2 => (decodeED2 op, 0)
  | _ => (.nopEd op, 0)

/-- The constructor of the DD row or of the FD row. -/
def IndexReg.pick (xy : IndexReg) (onIx onIy : Instr) : Instr :=
  match xy with
  | .ix => onIx
  | .iy => onIy

/-- R110 b: `alu` with a half of the index register. -/
def aluP (y : Fin 8) (xy : IndexReg) (p : Half) : Instr :=
  match y with
  | 0 => .addAP xy p | 1 => .adcAP xy p | 2 => .subP xy p | 3 => .sbcAP xy p
  | 4 => .andP xy p | 5 => .xorP xy p | 6 => .orP xy p | 7 => .cpP xy p

/-- R110 a: `alu` with the operand `(XY+d)`. -/
def aluMemXY (y : Fin 8) (xy : IndexReg) (d : Byte) : Instr :=
  match y with
  | 0 => xy.pick (.addAMemIx d) (.addAMemIy d)
  | 1 => xy.pick (.adcAMemIx d) (.adcAMemIy d)
  | 2 => xy.pick (.subMemIx d) (.subMemIy d)
  | 3 => xy.pick (.sbcAMemIx d) (.sbcAMemIy d)
  | 4 => xy.pick (.andMemIx d) (.andMemIy d)
  | 5 => xy.pick (.xorMemIx d) (.xorMemIy d)
  | 6 => xy.pick (.orMemIx d) (.orMemIy d)
  | 7 => xy.pick (.cpMemIx d) (.cpMemIy d)

/-- R110, R112, x = 0: the cells that the prefix changes. -/
def decodeXY0 (xy : IndexReg) (op b1 b2 : Byte) : Option (Instr × Nat) :=
  let y := opY op
  let pair := IndexPair.ofIndex (opP op)
  let nn := word b2 b1
  match opZ op with
  | 1 =>
    if opQ op then some (xy.pick (.addIxPp pair) (.addIyPp pair), 0)
    else if y = 4 then some (xy.pick (.ldIxNn nn) (.ldIyNn nn), 2) else none
  | 2 =>
    match y with
    | 4 => some (xy.pick (.ldMemNnIx nn) (.ldMemNnIy nn), 2)
    | 5 => some (xy.pick (.ldIxMemNn nn) (.ldIyMemNn nn), 2)
    | _ => none
  | 3 =>
    match y with
    | 4 => some (xy.pick .incIx .incIy, 0)
    | 5 => some (xy.pick .decIx .decIy, 0)
    | _ => none
  | 4 =>
    match y with
    | 4 => some (.incP xy .high, 0)
    | 5 => some (.incP xy .low, 0)
    | 6 => some (xy.pick (.incMemIx b1) (.incMemIy b1), 1)
    | _ => none
  | 5 =>
    match y with
    | 4 => some (.decP xy .high, 0)
    | 5 => some (.decP xy .low, 0)
    | 6 => some (xy.pick (.decMemIx b1) (.decMemIy b1), 1)
    | _ => none
  | 6 =>
    match y with
    | 4 => some (.ldPN xy .high b1, 1)
    | 5 => some (.ldPN xy .low b1, 1)
    | 6 => some (xy.pick (.ldMemIxN b1 b2) (.ldMemIyN b1 b2), 2)
    | _ => none
  | _ => none

/-- R110, R112, x = 1: with `(HL)` it becomes `(XY+d)`; otherwise a form that names H or L names a half; `HALT` is not changed. -/
def decodeXY1 (xy : IndexReg) (op b1 : Byte) : Option (Instr × Nat) :=
  match Reg8.ofIndex (opY op), Reg8.ofIndex (opZ op) with
  | none, none => none
  | some r, none => some (xy.pick (.ldRMemIx r b1) (.ldRMemIy r b1), 1)
  | none, some r => some (xy.pick (.ldMemIxR b1 r) (.ldMemIyR b1 r), 1)
  | some _, some _ =>
    match HalfReg.ofIndex (opY op), HalfReg.ofIndex (opZ op) with
    | some q, some q' => if q.isHalf || q'.isHalf then some (.ldQQ xy q q', 0) else none
    | _, _ => none

/-- R110, R112, x = 3. -/
def decodeXY3 (xy : IndexReg) (op : Byte) : Option (Instr × Nat) :=
  match opY op, opZ op with
  | 4, 1 => some (xy.pick .popIx .popIy, 0)
  | 4, 3 => some (xy.pick .exMemSpIx .exMemSpIy, 0)
  | 4, 5 => some (xy.pick .pushIx .pushIy, 0)
  | 5, 1 => some (xy.pick .jpIx .jpIy, 0)
  | 7, 1 => some (xy.pick .ldSpIx .ldSpIy, 0)
  | 1, 3 => some (.prefixCB (some xy), 0)
  | 3, 5 => some (.prefixDD (some xy), 0)
  | 5, 5 => some (.prefixED (some xy), 0)
  | 7, 5 => some (.prefixFD (some xy), 0)
  | _, _ => none

/-- R112: the DD or FD space, all 256 bytes; `none` is a cell where the prefix is redundant (R111 b). -/
def decodeXY (xy : IndexReg) (op b1 b2 : Byte) : Option (Instr × Nat) :=
  match opX op with
  | 0 => decodeXY0 xy op b1 b2
  | 1 => decodeXY1 xy op b1
  | 2 =>
    match Reg8.ofIndex (opZ op), Half.ofIndex (opZ op) with
    | none, _ => some (aluMemXY (opY op) xy b1, 1)
    | some _, some p => some (aluP (opY op) xy p, 0)
    | some _, none => none
  | 3 => decodeXY3 xy op

/-- R114: `rot` on `(XY+d)`. -/
def rotMemXY (y : Fin 8) (xy : IndexReg) (d : Byte) : Instr :=
  match y with
  | 0 => xy.pick (.rlcMemIx d) (.rlcMemIy d)
  | 1 => xy.pick (.rrcMemIx d) (.rrcMemIy d)
  | 2 => xy.pick (.rlMemIx d) (.rlMemIy d)
  | 3 => xy.pick (.rrMemIx d) (.rrMemIy d)
  | 4 => xy.pick (.slaMemIx d) (.slaMemIy d)
  | 5 => xy.pick (.sraMemIx d) (.sraMemIy d)
  | 6 => xy.pick (.sllMemIx d) (.sllMemIy d)
  | 7 => xy.pick (.srlMemIx d) (.srlMemIy d)

/-- R114: `rot` on `(XY+d)` with the copy to a register. -/
def rotMemXYR (y : Fin 8) (xy : IndexReg) (d : Byte) (r : Reg8) : Instr :=
  match y with
  | 0 => xy.pick (.rlcMemIxR d r) (.rlcMemIyR d r)
  | 1 => xy.pick (.rrcMemIxR d r) (.rrcMemIyR d r)
  | 2 => xy.pick (.rlMemIxR d r) (.rlMemIyR d r)
  | 3 => xy.pick (.rrMemIxR d r) (.rrMemIyR d r)
  | 4 => xy.pick (.slaMemIxR d r) (.slaMemIyR d r)
  | 5 => xy.pick (.sraMemIxR d r) (.sraMemIyR d r)
  | 6 => xy.pick (.sllMemIxR d r) (.sllMemIyR d r)
  | 7 => xy.pick (.srlMemIxR d r) (.srlMemIyR d r)

/-- R114: the DDCB or FDCB space, all 256 bytes, with the displacement that stands before the opcode byte. -/
def decodeXYCB (xy : IndexReg) (d op : Byte) : Instr :=
  let y := opY op
  match opX op, Reg8.ofIndex (opZ op) with
  | 0, none => rotMemXY y xy d
  | 0, some r => rotMemXYR y xy d r
  | 1, none => xy.pick (.bitBMemIx y d) (.bitBMemIy y d)
  | 1, some z => xy.pick (.bitBMemIxZ y d z) (.bitBMemIyZ y d z)
  | 2, none => xy.pick (.resBMemIx y d) (.resBMemIy y d)
  | 2, some r => xy.pick (.resBMemIxR y d r) (.resBMemIyR y d r)
  | 3, none => xy.pick (.setBMemIx y d) (.setBMemIy y d)
  | 3, some r => xy.pick (.setBMemIxR y d r) (.setBMemIyR y d r)

/-! ## The decode loop of R102 -/

/-- At least `n` bytes stand in the list. -/
def hasBytes : Nat → List Byte → Bool
  | 0, _ => true
  | _ + 1, [] => false
  | n + 1, _ :: bs => hasBytes n bs

/-- An instruction with `n` operand bytes after its opcode byte, `units` the prefix rows that the opcode's own decoding adds,
`opcodes` the opcode fetches up to and with the opcode byte. -/
def finish (units : List Instr) (opcodes : Nat) (rest : List Byte) (entry : Instr × Nat) : Except DecodeError Decoded :=
  if hasBytes entry.2 rest then .ok ⟨units, entry.1, opcodes + entry.2, opcodes⟩ else .error .incomplete

/-- One prefix row before what follows it: one more byte, one more opcode fetch. -/
def Decoded.after (u : Instr) (d : Decoded) : Decoded :=
  { prefixes := u :: d.prefixes, instr := d.instr, len := d.len + 1, m1 := d.m1 + 1 }

/-- The ED space after its prefix byte; `before` is a DD/FD prefix made redundant (R111 c). -/
def decodeAfterED (before : Option IndexReg) : List Byte → Except DecodeError Decoded
  | [] => .error .incomplete
  | op :: rest => finish [.prefixED before] 2 rest (decodeED op (rest.getD 0 0) (rest.getD 1 0))

/-- The CB space, or after DD/FD the DDCB/FDCB space (R102, R114: the displacement and the last byte are not opcode fetches). -/
def decodeAfterCB (before : Option IndexReg) (rest : List Byte) : Except DecodeError Decoded :=
  match before, rest with
  | none, op :: _ => .ok ⟨[.prefixCB none], decodeCB op, 2, 2⟩
  | some xy, d :: op :: _ => .ok ⟨[.prefixCB (some xy)], decodeXYCB xy d op, 3, 1⟩
  | _, _ => .error .incomplete

/-- The base space, or after DD/FD that space; a prefix that does not change the cell is redundant (R111 b). -/
def decodeOpcode (before : Option IndexReg) (op : Byte) (rest : List Byte) : Except DecodeError Decoded :=
  let b1 := rest.getD 0 0
  let b2 := rest.getD 1 0
  match before with
  | none => finish [] 1 rest (decodeBase op b1 b2)
  | some xy =>
    match decodeXY xy op b1 b2 with
    | some entry => finish [] 1 rest entry
    | none => finish [.baseRedundant xy] 1 rest (decodeBase op b1 b2)

/-- R102: the decode state machine, `before` the index register of the DD/FD prefix seen last. -/
def decodeFrom (before : Option IndexReg) : List Byte → Except DecodeError Decoded
  | [] => .error .incomplete
  | b :: rest =>
    if b = 0xDD then (decodeFrom (some .ix) rest).map (Decoded.after (.prefixDD before))
    else if b = 0xFD then (decodeFrom (some .iy) rest).map (Decoded.after (.prefixFD before))
    else if b = 0xED then decodeAfterED before rest
    else if b = 0xCB then decodeAfterCB before rest
    else decodeOpcode before b rest

/-- R102: the instruction at the front of the bytes, with every prefix before it. Total; the one rejection is that the bytes end too early. -/
def decode (bytes : List Byte) : Except DecodeError Decoded := decodeFrom none bytes

/-! ## The encoder, from the Encoding clauses of the instruction rules -/

/-- R101: where an instruction's opcode byte stands. `row` is a prefix row, `mark` the redundant-prefix row, which has no byte of its own. -/
inductive Space
  | base | cb | ed | xy (xy : IndexReg) | xycb (xy : IndexReg) | row | mark
  deriving DecidableEq, Repr

/-- The space, the opcode byte and the operand bytes of an instruction, as its rule's Encoding clause gives them; for the DDCB/FDCB
space the operand byte (the displacement) stands before the opcode byte. -/
def Instr.pattern : Instr → Space × Byte × List Byte
  | .nop => (.base, 0x00, [])
  | .exAfAf => (.base, 0x08, [])
  | .djnz e => (.base, 0x10, [e])
  | .jr e => (.base, 0x18, [e])
  | .jrCc cc e => (.base, 0x20 ||| (cc.code <<< 3), [e])
  | .ldDdNn dd nn => (.base, 0x01 ||| (dd.code <<< 4), [lo nn, hi nn])
  | .addHlSs ss => (.base, 0x09 ||| (ss.code <<< 4), [])
  | .ldMemBcA => (.base, 0x02, [])
  | .ldMemDeA => (.base, 0x12, [])
  | .ldMemNnHl nn => (.base, 0x22, [lo nn, hi nn])
  | .ldMemNnA nn => (.base, 0x32, [lo nn, hi nn])
  | .ldAMemBc => (.base, 0x0A, [])
  | .ldAMemDe => (.base, 0x1A, [])
  | .ldHlMemNn nn => (.base, 0x2A, [lo nn, hi nn])
  | .ldAMemNn nn => (.base, 0x3A, [lo nn, hi nn])
  | .incSs ss => (.base, 0x03 ||| (ss.code <<< 4), [])
  | .decSs ss => (.base, 0x0B ||| (ss.code <<< 4), [])
  | .incR r => (.base, 0x04 ||| (r.code <<< 3), [])
  | .incMemHl => (.base, 0x34, [])
  | .decR r => (.base, 0x05 ||| (r.code <<< 3), [])
  | .decMemHl => (.base, 0x35, [])
  | .ldRN r n => (.base, 0x06 ||| (r.code <<< 3), [n])
  | .ldMemHlN n => (.base, 0x36, [n])
  | .rlca => (.base, 0x07, [])
  | .rrca => (.base, 0x0F, [])
  | .rla => (.base, 0x17, [])
  | .rra => (.base, 0x1F, [])
  | .daa => (.base, 0x27, [])
  | .cpl => (.base, 0x2F, [])
  | .scf => (.base, 0x37, [])
  | .ccf => (.base, 0x3F, [])
  | .ldRR r r' => (.base, 0x40 ||| (r.code <<< 3) ||| r'.code, [])
  | .ldRMemHl r => (.base, 0x46 ||| (r.code <<< 3), [])
  | .ldMemHlR r => (.base, 0x70 ||| r.code, [])
  | .halt => (.base, 0x76, [])
  | .addAR r => (.base, 0x80 ||| r.code, [])
  | .addAMemHl => (.base, 0x86, [])
  | .addAN n => (.base, 0xC6, [n])
  | .adcAR r => (.base, 0x88 ||| r.code, [])
  | .adcAMemHl => (.base, 0x8E, [])
  | .adcAN n => (.base, 0xCE, [n])
  | .subR r => (.base, 0x90 ||| r.code, [])
  | .subMemHl => (.base, 0x96, [])
  | .subN n => (.base, 0xD6, [n])
  | .sbcAR r => (.base, 0x98 ||| r.code, [])
  | .sbcAMemHl => (.base, 0x9E, [])
  | .sbcAN n => (.base, 0xDE, [n])
  | .andR r => (.base, 0xA0 ||| r.code, [])
  | .andMemHl => (.base, 0xA6, [])
  | .andN n => (.base, 0xE6, [n])
  | .xorR r => (.base, 0xA8 ||| r.code, [])
  | .xorMemHl => (.base, 0xAE, [])
  | .xorN n => (.base, 0xEE, [n])
  | .orR r => (.base, 0xB0 ||| r.code, [])
  | .orMemHl => (.base, 0xB6, [])
  | .orN n => (.base, 0xF6, [n])
  | .cpR r => (.base, 0xB8 ||| r.code, [])
  | .cpMemHl => (.base, 0xBE, [])
  | .cpN n => (.base, 0xFE, [n])
  | .retCc cc => (.base, 0xC0 ||| (cc.code <<< 3), [])
  | .popQq qq => (.base, 0xC1 ||| (qq.code <<< 4), [])
  | .ret => (.base, 0xC9, [])
  | .exx => (.base, 0xD9, [])
  | .jpHl => (.base, 0xE9, [])
  | .ldSpHl => (.base, 0xF9, [])
  | .jpCcNn cc nn => (.base, 0xC2 ||| (cc.code <<< 3), [lo nn, hi nn])
  | .jpNn nn => (.base, 0xC3, [lo nn, hi nn])
  | .outNA n => (.base, 0xD3, [n])
  | .inAN n => (.base, 0xDB, [n])
  | .exMemSpHl => (.base, 0xE3, [])
  | .exDeHl => (.base, 0xEB, [])
  | .di => (.base, 0xF3, [])
  | .ei => (.base, 0xFB, [])
  | .callCcNn cc nn => (.base, 0xC4 ||| (cc.code <<< 3), [lo nn, hi nn])
  | .pushQq qq => (.base, 0xC5 ||| (qq.code <<< 4), [])
  | .callNn nn => (.base, 0xCD, [lo nn, hi nn])
  | .rst t => (.base, 0xC7 ||| (index3 t <<< 3), [])
  | .prefixCB _ => (.row, 0xCB, [])
  | .prefixDD _ => (.row, 0xDD, [])
  | .prefixED _ => (.row, 0xED, [])
  | .prefixFD _ => (.row, 0xFD, [])
  | .rlcR r => (.cb, 0x00 ||| r.code, [])
  | .rlcMemHl => (.cb, 0x06, [])
  | .rrcR r => (.cb, 0x08 ||| r.code, [])
  | .rrcMemHl => (.cb, 0x0E, [])
  | .rlR r => (.cb, 0x10 ||| r.code, [])
  | .rlMemHl => (.cb, 0x16, [])
  | .rrR r => (.cb, 0x18 ||| r.code, [])
  | .rrMemHl => (.cb, 0x1E, [])
  | .slaR r => (.cb, 0x20 ||| r.code, [])
  | .slaMemHl => (.cb, 0x26, [])
  | .sraR r => (.cb, 0x28 ||| r.code, [])
  | .sraMemHl => (.cb, 0x2E, [])
  | .sllR r => (.cb, 0x30 ||| r.code, [])
  | .sllMemHl => (.cb, 0x36, [])
  | .srlR r => (.cb, 0x38 ||| r.code, [])
  | .srlMemHl => (.cb, 0x3E, [])
  | .bitBR b r => (.cb, 0x40 ||| (index3 b <<< 3) ||| r.code, [])
  | .bitBMemHl b => (.cb, 0x46 ||| (index3 b <<< 3), [])
  | .resBR b r => (.cb, 0x80 ||| (index3 b <<< 3) ||| r.code, [])
  | .resBMemHl b => (.cb, 0x86 ||| (index3 b <<< 3), [])
  | .setBR b r => (.cb, 0xC0 ||| (index3 b <<< 3) ||| r.code, [])
  | .setBMemHl b => (.cb, 0xC6 ||| (index3 b <<< 3), [])
  | .inRC r => (.ed, 0x40 ||| (r.code <<< 3), [])
  | .inC => (.ed, 0x70, [])
  | .outCR r => (.ed, 0x41 ||| (r.code <<< 3), [])
  | .outC0 => (.ed, 0x71, [])
  | .sbcHlSs ss => (.ed, 0x42 ||| (ss.code <<< 4), [])
  | .adcHlSs ss => (.ed, 0x4A ||| (ss.code <<< 4), [])
  | .ldMemNnDd dd nn => (.ed, 0x43 ||| (dd.code <<< 4), [lo nn, hi nn])
  | .ldDdMemNn dd nn => (.ed, 0x4B ||| (dd.code <<< 4), [lo nn, hi nn])
  | .neg y => (.ed, 0x44 ||| (index3 y <<< 3), [])
  | .retn y => (.ed, 0x45 ||| (index3 y <<< 3), [])
  | .reti => (.ed, 0x4D, [])
  | .im0 x5 x3 => (.ed, 0x46 ||| (flagBit x5 <<< 5) ||| (flagBit x3 <<< 3), [])
  | .im1 x5 => (.ed, 0x56 ||| (flagBit x5 <<< 5), [])
  | .im2 x5 => (.ed, 0x5E ||| (flagBit x5 <<< 5), [])
  | .ldIA => (.ed, 0x47, [])
  | .ldRA => (.ed, 0x4F, [])
  | .ldAI => (.ed, 0x57, [])
  | .ldAR => (.ed, 0x5F, [])
  | .rrd => (.ed, 0x67, [])
  | .rld => (.ed, 0x6F, [])
  | .ldi => (.ed, 0xA0, [])
  | .cpi => (.ed, 0xA1, [])
  | .ini => (.ed, 0xA2, [])
  | .outi => (.ed, 0xA3, [])
  | .ldd => (.ed, 0xA8, [])
  | .cpd => (.ed, 0xA9, [])
  | .ind => (.ed, 0xAA, [])
  | .outd => (.ed, 0xAB, [])
  | .ldir => (.ed, 0xB0, [])
  | .cpir => (.ed, 0xB1, [])
  | .inir => (.ed, 0xB2, [])
  | .otir => (.ed, 0xB3, [])
  | .lddr => (.ed, 0xB8, [])
  | .cpdr => (.ed, 0xB9, [])
  | .indr => (.ed, 0xBA, [])
  | .otdr => (.ed, 0xBB, [])
  | .nopEd op => (.ed, op, [])
  | .addIxPp pp => (.xy .ix, 0x09 ||| (pp.code <<< 4), [])
  | .addIyPp pp => (.xy .iy, 0x09 ||| (pp.code <<< 4), [])
  | .ldIxNn nn => (.xy .ix, 0x21, [lo nn, hi nn])
  | .ldIyNn nn => (.xy .iy, 0x21, [lo nn, hi nn])
  | .ldMemNnIx nn => (.xy .ix, 0x22, [lo nn, hi nn])
  | .ldMemNnIy nn => (.xy .iy, 0x22, [lo nn, hi nn])
  | .incIx => (.xy .ix, 0x23, [])
  | .incIy => (.xy .iy, 0x23, [])
  | .incP xy p => (.xy xy, 0x24 ||| (p.code <<< 3), [])
  | .decP xy p => (.xy xy, 0x25 ||| (p.code <<< 3), [])
  | .ldPN xy p n => (.xy xy, 0x26 ||| (p.code <<< 3), [n])
  | .ldIxMemNn nn => (.xy .ix, 0x2A, [lo nn, hi nn])
  | .ldIyMemNn nn => (.xy .iy, 0x2A, [lo nn, hi nn])
  | .decIx => (.xy .ix, 0x2B, [])
  | .decIy => (.xy .iy, 0x2B, [])
  | .incMemIx d => (.xy .ix, 0x34, [d])
  | .incMemIy d => (.xy .iy, 0x34, [d])
  | .decMemIx d => (.xy .ix, 0x35, [d])
  | .decMemIy d => (.xy .iy, 0x35, [d])
  | .ldMemIxN d n => (.xy .ix, 0x36, [d, n])
  | .ldMemIyN d n => (.xy .iy, 0x36, [d, n])
  | .ldQQ xy q q' => (.xy xy, 0x40 ||| (q.code <<< 3) ||| q'.code, [])
  | .ldRMemIx r d => (.xy .ix, 0x46 ||| (r.code <<< 3), [d])
  | .ldRMemIy r d => (.xy .iy, 0x46 ||| (r.code <<< 3), [d])
  | .ldMemIxR d r => (.xy .ix, 0x70 ||| r.code, [d])
  | .ldMemIyR d r => (.xy .iy, 0x70 ||| r.code, [d])
  | .addAP xy p => (.xy xy, 0x84 ||| p.code, [])
  | .addAMemIx d => (.xy .ix, 0x86, [d])
  | .addAMemIy d => (.xy .iy, 0x86, [d])
  | .adcAP xy p => (.xy xy, 0x8C ||| p.code, [])
  | .adcAMemIx d => (.xy .ix, 0x8E, [d])
  | .adcAMemIy d => (.xy .iy, 0x8E, [d])
  | .subP xy p => (.xy xy, 0x94 ||| p.code, [])
  | .subMemIx d => (.xy .ix, 0x96, [d])
  | .subMemIy d => (.xy .iy, 0x96, [d])
  | .sbcAP xy p => (.xy xy, 0x9C ||| p.code, [])
  | .sbcAMemIx d => (.xy .ix, 0x9E, [d])
  | .sbcAMemIy d => (.xy .iy, 0x9E, [d])
  | .andP xy p => (.xy xy, 0xA4 ||| p.code, [])
  | .andMemIx d => (.xy .ix, 0xA6, [d])
  | .andMemIy d => (.xy .iy, 0xA6, [d])
  | .xorP xy p => (.xy xy, 0xAC ||| p.code, [])
  | .xorMemIx d => (.xy .ix, 0xAE, [d])
  | .xorMemIy d => (.xy .iy, 0xAE, [d])
  | .orP xy p => (.xy xy, 0xB4 ||| p.code, [])
  | .orMemIx d => (.xy .ix, 0xB6, [d])
  | .orMemIy d => (.xy .iy, 0xB6, [d])
  | .cpP xy p => (.xy xy, 0xBC ||| p.code, [])
  | .cpMemIx d => (.xy .ix, 0xBE, [d])
  | .cpMemIy d => (.xy .iy, 0xBE, [d])
  | .popIx => (.xy .ix, 0xE1, [])
  | .popIy => (.xy .iy, 0xE1, [])
  | .exMemSpIx => (.xy .ix, 0xE3, [])
  | .exMemSpIy => (.xy .iy, 0xE3, [])
  | .pushIx => (.xy .ix, 0xE5, [])
  | .pushIy => (.xy .iy, 0xE5, [])
  | .jpIx => (.xy .ix, 0xE9, [])
  | .jpIy => (.xy .iy, 0xE9, [])
  | .ldSpIx => (.xy .ix, 0xF9, [])
  | .ldSpIy => (.xy .iy, 0xF9, [])
  | .baseRedundant _ => (.mark, 0x00, [])
  | .rlcMemIx d => (.xycb .ix, 0x06, [d])
  | .rlcMemIy d => (.xycb .iy, 0x06, [d])
  | .rlcMemIxR d r => (.xycb .ix, 0x00 ||| r.code, [d])
  | .rlcMemIyR d r => (.xycb .iy, 0x00 ||| r.code, [d])
  | .rrcMemIx d => (.xycb .ix, 0x0E, [d])
  | .rrcMemIy d => (.xycb .iy, 0x0E, [d])
  | .rrcMemIxR d r => (.xycb .ix, 0x08 ||| r.code, [d])
  | .rrcMemIyR d r => (.xycb .iy, 0x08 ||| r.code, [d])
  | .rlMemIx d => (.xycb .ix, 0x16, [d])
  | .rlMemIy d => (.xycb .iy, 0x16, [d])
  | .rlMemIxR d r => (.xycb .ix, 0x10 ||| r.code, [d])
  | .rlMemIyR d r => (.xycb .iy, 0x10 ||| r.code, [d])
  | .rrMemIx d => (.xycb .ix, 0x1E, [d])
  | .rrMemIy d => (.xycb .iy, 0x1E, [d])
  | .rrMemIxR d r => (.xycb .ix, 0x18 ||| r.code, [d])
  | .rrMemIyR d r => (.xycb .iy, 0x18 ||| r.code, [d])
  | .slaMemIx d => (.xycb .ix, 0x26, [d])
  | .slaMemIy d => (.xycb .iy, 0x26, [d])
  | .slaMemIxR d r => (.xycb .ix, 0x20 ||| r.code, [d])
  | .slaMemIyR d r => (.xycb .iy, 0x20 ||| r.code, [d])
  | .sraMemIx d => (.xycb .ix, 0x2E, [d])
  | .sraMemIy d => (.xycb .iy, 0x2E, [d])
  | .sraMemIxR d r => (.xycb .ix, 0x28 ||| r.code, [d])
  | .sraMemIyR d r => (.xycb .iy, 0x28 ||| r.code, [d])
  | .sllMemIx d => (.xycb .ix, 0x36, [d])
  | .sllMemIy d => (.xycb .iy, 0x36, [d])
  | .sllMemIxR d r => (.xycb .ix, 0x30 ||| r.code, [d])
  | .sllMemIyR d r => (.xycb .iy, 0x30 ||| r.code, [d])
  | .srlMemIx d => (.xycb .ix, 0x3E, [d])
  | .srlMemIy d => (.xycb .iy, 0x3E, [d])
  | .srlMemIxR d r => (.xycb .ix, 0x38 ||| r.code, [d])
  | .srlMemIyR d r => (.xycb .iy, 0x38 ||| r.code, [d])
  | .bitBMemIx b d => (.xycb .ix, 0x46 ||| (index3 b <<< 3), [d])
  | .bitBMemIy b d => (.xycb .iy, 0x46 ||| (index3 b <<< 3), [d])
  | .bitBMemIxZ b d z => (.xycb .ix, 0x40 ||| (index3 b <<< 3) ||| z.code, [d])
  | .bitBMemIyZ b d z => (.xycb .iy, 0x40 ||| (index3 b <<< 3) ||| z.code, [d])
  | .resBMemIx b d => (.xycb .ix, 0x86 ||| (index3 b <<< 3), [d])
  | .resBMemIy b d => (.xycb .iy, 0x86 ||| (index3 b <<< 3), [d])
  | .resBMemIxR b d r => (.xycb .ix, 0x80 ||| (index3 b <<< 3) ||| r.code, [d])
  | .resBMemIyR b d r => (.xycb .iy, 0x80 ||| (index3 b <<< 3) ||| r.code, [d])
  | .setBMemIx b d => (.xycb .ix, 0xC6 ||| (index3 b <<< 3), [d])
  | .setBMemIy b d => (.xycb .iy, 0xC6 ||| (index3 b <<< 3), [d])
  | .setBMemIxR b d r => (.xycb .ix, 0xC0 ||| (index3 b <<< 3) ||| r.code, [d])
  | .setBMemIyR b d r => (.xycb .iy, 0xC0 ||| (index3 b <<< 3) ||| r.code, [d])

/-- The bytes of an instruction after the prefix bytes of its space; a prefix row's own byte; nothing for a redundant-prefix mark. -/
def Instr.body (i : Instr) : List Byte :=
  match i.pattern with
  | (.mark, _, _) => []
  | (.xycb _, op, operands) => operands ++ [op]
  | (_, op, operands) => op :: operands

/-- The prefix rows that lead from the base space to the space of an instruction, with no redundant prefix. -/
def Instr.units (i : Instr) : List Instr :=
  match i.pattern.1 with
  | .base => []
  | .cb => [.prefixCB none]
  | .ed => [.prefixED none]
  | .xy xy => [xy.prefixUnit none]
  | .xycb xy => [xy.prefixUnit none, .prefixCB (some xy)]
  | .row => []
  | .mark => []

/-- How many of an instruction's bytes are opcode fetches (10_state.md R30: 1 in the base space, 2 in every other). -/
def Instr.opcodeFetches (i : Instr) : Nat :=
  match i.pattern.1 with
  | .base => 1
  | .cb => 2
  | .ed => 2
  | .xy _ => 2
  | .xycb _ => 2
  | .row => 1
  | .mark => 0

/-- The words of a well-formed instruction (R105), with no redundant prefix. -/
def encode (i : Instr) : List Byte := i.units.flatMap Instr.body ++ i.body

/-! ## Words numbered as spec/opcode_table.json numbers them (log 14) -/

/-- The byte is one of the four prefix bytes. -/
def isPrefixByte (b : Byte) : Bool := b == 0xCB || b == 0xDD || b == 0xED || b == 0xFD

/-- The bytes of a table word in address order. The first byte is bits 7..0, but in the table's two-byte rows (the ED no-operations and
the redundant prefixes) bits 15..8 are the prefix byte, which stands first. -/
def tableBytes (nbits w : Nat) : List Byte :=
  let lowFirst := (List.range ((nbits + 7) / 8)).map fun k => BitVec.ofNat 8 (w / 256 ^ k)
  match lowFirst with
  | [l, h] => if isPrefixByte h then [h, l] else [l, h]
  | bytes => bytes

/-- The row that the last of `n` given bytes belongs to, among the units of one step. -/
def rowAt : Nat → List Instr → Option Instr
  | _, [] => none
  | n, u :: us =>
    if u.body.isEmpty || n ≤ u.body.length then some u else rowAt (n - u.body.length) us

/-- The row of the opcode table that the decoder reads in a table word, every byte above it zero. -/
def decodeTableWord (nbits w : Nat) : Option Instr :=
  let given := tableBytes nbits w
  match decode (given ++ List.replicate 4 0) with
  | .ok d => rowAt given.length (d.prefixes ++ [d.instr])
  | .error _ => none

end Sys2Proof
end

