-- ==== Sys2Proof/Config.lean ====
section
/-! DEFINITION. What the platform or the spec's decisions fix once for the machine, the calls it makes on the host, and the two free values. -/

namespace Sys2Proof

/-- One call of the host's contract (20_memory.md R70), with the byte read or written. -/
inductive Machine.BusEvent
  | readByte (addr : Word) (value : Byte)
  | writeByte (addr : Word) (value : Byte)
  | readPort (addr : Word) (value : Byte)
  | writePort (addr : Word) (value : Byte)
  deriving DecidableEq, Repr

/-- 20_memory.md R80, 60_exceptions.md R477, D9: the entry of the non-maskable interrupt. -/
def Config.nmiVector : Word := 0x0066

/-- 20_memory.md R80, 60_exceptions.md R475, D9: the entry of the mode 1 maskable interrupt. -/
def Config.im1Vector : Word := 0x0038

/-- 10_state.md R40, D2: PC after reset. -/
def Config.resetEntry : Word := 0x0000

/-- What a memory address that nothing has written reads as. DESIGN CHOICE, unsafe (log 3): R79 and D10 leave the launch content open. -/
def Config.unlistedByte : Byte := 0x00

/-- 49_io.md R435, D21: the byte that `OUT (C),0` writes. -/
def Config.outCZeroByte : Byte := 0x00

/-- D27: within how many fetches a step must find an opcode that is no DD or FD prefix; otherwise it diverges. -/
def Config.prefixFuel : Nat := 65536

/-- FREE VALUE (log 4). The answer of the host to a `ReadPort` call for which the state holds no answer: any byte, possibly different at every
call (20_memory.md R79, D11). The first argument is the number of the call, the second its port address. -/
opaque Config.portAnswer : Nat → Word → Byte

/-- FREE VALUE (log 18). The answer of the host to a `ReadByte` call at a device-mapped address: any byte, possibly different at every call
(20_memory.md R77, R79). The first argument is every call the core made before, newest first; the second is the address. -/
opaque Config.deviceByte : List Machine.BusEvent → Word → Byte

end Sys2Proof
end

