-- ==== Sys2Proof/Machine/State.lean ====
section
/-! DEFINITION. Everything the spec gives the machine (10_state.md), as plain data, and the machine right after reset. -/

namespace Sys2Proof.Machine

/-- Why a step stops with a fault. -/
inductive Fault
  /-- Raised by `step` alone, when the 65,536 bytes from PC on are all DD or FD: the step never ends (30_encoding.md R120, D27, U7; log 8). Safe: the spec gives the step no end state. -/
  | prefixHang
  deriving DecidableEq, Repr

/-- Why a step is refused. -/
inductive Refusal
  /-- An instruction without a meaning. Raised by an arm of `exec` alone; no arm raises it. Safe: nothing follows from a refused step. -/
  | notModelled (mnemonic : String)
  /-- Raised by `step` alone, when a maskable interrupt is accepted in mode 0 and the supplied byte is not an RST (60_exceptions.md R474, D8, U1: the spec gives such an acceptance no meaning; log 9). Safe. -/
  | im0Response
  deriving DecidableEq, Repr

/-- R33: the interrupt mode. -/
inductive IntMode
  | im0 | im1 | im2
  deriving DecidableEq, Repr

/-- Memory: the addresses whose byte differs from `Config.unlistedByte`, in rising order (`Memory.wf`). -/
abbrev Memory := List Host.Cell

/-- 20_memory.md R79: what the host has behind an address. -/
inductive MemKind
  /-- A read returns the byte last written, or the launch content. -/
  | ram
  /-- A write changes nothing (R79, 70_reset_and_hazards.md R534). -/
  | rom
  /-- A read returns any byte and a write is the host's: a device, or memory that a device switches (log 18). -/
  | device
  deriving DecidableEq, Repr

/-- `size` addresses from `base` on, wrapping at the top, and what they hold. -/
structure Region where
  base : Word
  size : Nat
  kind : MemKind
  deriving DecidableEq, Repr

/-- 00_scope.md R6, `memory kind`: the first region that holds an address says what it is; an address in none is RAM, the default of D10. -/
abbrev MemMap := List Region

/-- The `mnemonic` field of a debug record, left abstract as R507 allows: the instruction itself, or the kind of acceptance (R509). -/
inductive Origin
  | instr (i : Instr) | int | nmi
  deriving DecidableEq, Repr

/-- 60_exceptions.md R507. -/
structure BranchEvent where
  addr   : Word
  origin : Origin
  taken  : Bool
  target : Word
  tact   : Nat
  deriving DecidableEq, Repr

/-- R509: the kind of a stack content record, with its value or values. -/
inductive StackAccess
  | push (value : Word) | pop (value : Word) | exchange (read : Word) (written : Word)
  deriving DecidableEq, Repr

/-- 60_exceptions.md R508 (`pointer`) and R509 (`content`). -/
inductive StackEvent
  | pointer (addr : Word) (origin : Origin) (oldSP : Word) (newSP : Word) (tact : Nat)
  | content (addr : Word) (origin : Origin) (access : StackAccess) (oldSP : Word) (newSP : Word) (tact : Nat)
  deriving DecidableEq, Repr

/-- The machine. -/
structure State where
  /-- R20, R21: the working set; AF, BC, DE, HL are its pairs. -/
  a : Byte
  f : Byte
  b : Byte
  c : Byte
  d : Byte
  e : Byte
  h : Byte
  l : Byte
  /-- R20, R22: the shadow set. -/
  a' : Byte
  f' : Byte
  b' : Byte
  c' : Byte
  d' : Byte
  e' : Byte
  h' : Byte
  l' : Byte
  /-- R24: the index registers. -/
  ix : Word
  iy : Word
  /-- R25. -/
  sp : Word
  /-- R26. -/
  pc : Word
  /-- R36: the hidden register WZ. -/
  wz : Word
  /-- R29: the interrupt vector register. -/
  i : Byte
  /-- R30: the refresh register. -/
  r : Byte
  /-- R31, R32. -/
  iff1 : Bool
  iff2 : Bool
  /-- R33. -/
  im : IntMode
  /-- R34. -/
  halted : Bool
  /-- R37. -/
  eiDelay : Bool
  /-- R38. -/
  intPending : Bool
  intBus : Byte
  /-- R39. -/
  nmiPending : Bool
  /-- R35: T-states since reset (log 7). -/
  tacts : Nat
  /-- R43 a, R79: the memory behind `ReadByte` and `WriteByte`. -/
  mem : Memory
  /-- R6, R79: what kind of memory the host has at each address (log 3). -/
  memMap : MemMap
  /-- R43 b, R79: the host's answers to the next `ReadPort` calls, the next one first (log 4). -/
  portInputs : List Byte
  /-- The model's own: how many `ReadPort` calls were made (log 4). -/
  portReads : Nat
  /-- The model's own: the calls the core made on the host, newest first (R70, R77; log 5); what a device answers may depend on them (log 18). -/
  bus : List BusEvent
  /-- R506: whether an observer is registered, and the records it was handed, newest first (log 6). -/
  branchObserver : Bool
  stackObserver : Bool
  branchLog : List BranchEvent
  stackLog : List StackEvent
  /-- The model's own: operation address and tact counter at the start of the step, for the records (R507; log 6). -/
  opAddr : Word
  opTacts : Nat
  deriving DecidableEq, Repr

/-- R6, R40, R521: the argument `POWER_ON`, a value for each register that reset does not set. -/
structure PowerOn where
  a : Byte
  f : Byte
  b : Byte
  c : Byte
  d : Byte
  e : Byte
  h : Byte
  l : Byte
  a' : Byte
  f' : Byte
  b' : Byte
  c' : Byte
  d' : Byte
  e' : Byte
  h' : Byte
  l' : Byte
  ix : Word
  iy : Word
  sp : Word
  wz : Word
  deriving DecidableEq, Repr

/-- 70_reset_and_hazards.md R521: construction from `POWER_ON` followed by the reset of R520, over the memory contents and the memory kinds that
00_scope.md R6 leaves to the host. No observer is registered; `intBus` after reset is unspecified and takes 0xFF (DESIGN CHOICE, unsafe, log 2). -/
def State.construct (p : PowerOn) (contents : Memory) (kinds : MemMap) : State :=
  { a := p.a, f := p.f, b := p.b, c := p.c, d := p.d, e := p.e, h := p.h, l := p.l,
    a' := p.a', f' := p.f', b' := p.b', c' := p.c', d' := p.d', e' := p.e', h' := p.h', l' := p.l',
    ix := p.ix, iy := p.iy, sp := p.sp, wz := p.wz,
    pc := Config.resetEntry, i := 0, r := 0, iff1 := false, iff2 := false, im := .im0, halted := false,
    eiDelay := false, intPending := false, intBus := 0xFF, nmiPending := false, tacts := 0,
    mem := contents, memMap := kinds, portInputs := [], portReads := 0, bus := [], branchObserver := false, stackObserver := false,
    branchLog := [], stackLog := [], opAddr := 0, opTacts := 0 }

/-- The `POWER_ON` of `State.reset`: every register 0. DESIGN CHOICE, unsafe (log 1): the spec leaves it open (D3). -/
def PowerOn.zero : PowerOn :=
  { a := 0, f := 0, b := 0, c := 0, d := 0, e := 0, h := 0, l := 0,
    a' := 0, f' := 0, b' := 0, c' := 0, d' := 0, e' := 0, h' := 0, l' := 0, ix := 0, iy := 0, sp := 0, wz := 0 }

/-- The machine right after power-on and reset (10_state.md R40), over RAM that lists nothing (D10, log 3). -/
def State.reset : State := State.construct PowerOn.zero [] []

end Sys2Proof.Machine
end

