-- ==== Sys2Proof/Machine/Memory.lean ====
section
/-! DEFINITION. The byte memory of 20_memory.md R79 in one canonical form: addresses strictly rising, below 65,536, and no entry equal to what
an unlisted address reads as, so that equal memories are equal lists; and the kinds of memory that the host may have behind an address. -/

namespace Sys2Proof.Machine

/-- The byte at an address: the listed one, or `Config.unlistedByte` (log 3). -/
def Memory.read : Memory → Word → Byte
  | [], _ => Config.unlistedByte
  | (k, v) :: rest, a => if k = a.toNat then v else Memory.read rest a

/-- A cell for the front of a memory: left out when it holds what an unlisted address reads as. -/
def Memory.cons (k : Nat) (v : Byte) (rest : Memory) : Memory :=
  if v = Config.unlistedByte then rest else (k, v) :: rest

/-- The memory with a byte at an address, in whatever kind of memory: a write to RAM, or the host's own change. -/
def Memory.write : Memory → Word → Byte → Memory
  | [], a, v => Memory.cons a.toNat v []
  | (k, u) :: rest, a, v =>
    if k < a.toNat then (k, u) :: Memory.write rest a v
    else if k = a.toNat then Memory.cons k v rest
    else Memory.cons a.toNat v ((k, u) :: rest)

/-- The address lies in the region. -/
def Region.holds (r : Region) (a : Word) : Bool := (a - r.base).toNat < r.size

/-- 00_scope.md R6, 20_memory.md R79: what the host has behind an address: the first region that holds it, else RAM (D10). -/
def MemMap.kindAt : MemMap → Word → MemKind
  | [], _ => .ram
  | r :: rest, a => if r.holds a then r.kind else MemMap.kindAt rest a

/-- R79: the memory after `WriteByte(a, v)`: RAM takes the byte, ROM does not, and a device keeps no byte of the memory. -/
def Memory.store (m : Memory) (kinds : MemMap) (a : Word) (v : Byte) : Memory :=
  match kinds.kindAt a with
  | .ram => m.write a v
  | .rom | .device => m

/-- Every address of the list is at least `low`, they rise strictly, they are below 65,536, and no cell holds `Config.unlistedByte`. -/
def Memory.wfFrom : Nat → Memory → Bool
  | _, [] => true
  | low, (k, v) :: rest => low ≤ k && k < 65536 && v != Config.unlistedByte && Memory.wfFrom (k + 1) rest

/-- The canonical form. -/
def Memory.wf (m : Memory) : Bool := Memory.wfFrom 0 m

end Sys2Proof.Machine
end

