-- ==== Sys2Proof/Machine/Flags.lean ====
section
/-! DEFINITION. The flag byte and every flag computation of the spec (10_state.md R27; 43_alu8.md R220 to R225; 44_general_control.md R290 to
R295; 45_alu16.md R310 to R313; 46_rotate_shift.md R330 to R334; 47_bit.md R380; 42_exchange_block.md R205, R209; 49_io.md R436, R440).
A function that leaves a flag alone takes the flags before and keeps it. -/

namespace Sys2Proof.Machine

/-- R27: the eight flags by name. -/
structure Flags where
  s  : Bool
  z  : Bool
  r5 : Bool
  h  : Bool
  r3 : Bool
  pv : Bool
  n  : Bool
  c  : Bool
  deriving DecidableEq, Repr

/-- R27: the flags of a flag byte. -/
def Flags.ofByte (f : Byte) : Flags :=
  { s := f.getLsbD 7, z := f.getLsbD 6, r5 := f.getLsbD 5, h := f.getLsbD 4,
    r3 := f.getLsbD 3, pv := f.getLsbD 2, n := f.getLsbD 1, c := f.getLsbD 0 }

/-- R27: the flag byte, S in bit 7 down to C in bit 0. -/
def Flags.toByte (g : Flags) : Byte :=
  BitVec.ofBool g.s ++ BitVec.ofBool g.z ++ BitVec.ofBool g.r5 ++ BitVec.ofBool g.h ++
    BitVec.ofBool g.r3 ++ BitVec.ofBool g.pv ++ BitVec.ofBool g.n ++ BitVec.ofBool g.c

/-- A carry as a number. -/
def carryNat (c : Bool) : Nat := if c then 1 else 0

/-- The byte of a natural number modulo 256. -/
def byteOf (n : Nat) : Byte := BitVec.ofNat 8 n

/-- R220: `ADD8(a, b, c)`. -/
def add8 (a b : Byte) (cin : Bool) : Byte × Flags :=
  let sum := a.toNat + b.toNat + carryNat cin
  let res := byteOf sum
  (res,
    { s := res.getLsbD 7, z := res == 0, r5 := res.getLsbD 5
      h := a.toNat % 16 + b.toNat % 16 + carryNat cin > 15
      r3 := res.getLsbD 3
      pv := a.getLsbD 7 == b.getLsbD 7 && res.getLsbD 7 != a.getLsbD 7
      n := false, c := sum > 255 })

/-- R221: `SUB8(a, b, c)`. -/
def sub8 (a b : Byte) (cin : Bool) : Byte × Flags :=
  let res := byteOf (a.toNat + 512 - b.toNat - carryNat cin)
  (res,
    { s := res.getLsbD 7, z := res == 0, r5 := res.getLsbD 5
      h := a.toNat % 16 < b.toNat % 16 + carryNat cin
      r3 := res.getLsbD 3
      pv := a.getLsbD 7 != b.getLsbD 7 && res.getLsbD 7 != a.getLsbD 7
      n := true, c := a.toNat < b.toNat + carryNat cin })

/-- R222: `LOGIC8(kind, res)`; `isAnd` is kind = and. -/
def logic8 (isAnd : Bool) (res : Byte) : Flags :=
  { s := res.getLsbD 7, z := res == 0, r5 := res.getLsbD 5, h := isAnd, r3 := res.getLsbD 3, pv := parity res, n := false, c := false }

/-- R223: `CP8(a, v)`: the flags of the difference, but R5 and R3 from the operand. -/
def cp8 (a v : Byte) : Flags :=
  { (sub8 a v false).2 with r5 := v.getLsbD 5, r3 := v.getLsbD 3 }

/-- 30_encoding.md R104, table `alu`: the eight operations on A (43_alu8.md R226). -/
inductive AluOp
  | add | adc | sub | sbc | and | xor | or | cp
  deriving DecidableEq, Repr

/-- R230 to R269: the new A and the flags of an operation on A; `CP` leaves A alone. -/
def alu8 (k : AluOp) (a v : Byte) (old : Flags) : Byte × Flags :=
  match k with
  | .add => add8 a v false
  | .adc => add8 a v old.c
  | .sub => sub8 a v false
  | .sbc => sub8 a v old.c
  | .and => (a &&& v, logic8 true (a &&& v))
  | .xor => (a ^^^ v, logic8 false (a ^^^ v))
  | .or => (a ||| v, logic8 false (a ||| v))
  | .cp => (a, cp8 a v)

/-- R224: `INC8(v, Fold)`. -/
def inc8 (v : Byte) (old : Flags) : Byte × Flags :=
  let res := v + 1
  (res,
    { s := res.getLsbD 7, z := res == 0, r5 := res.getLsbD 5, h := res.toNat % 16 == 0, r3 := res.getLsbD 3
      pv := res == 0x80, n := false, c := old.c })

/-- R225: `DEC8(v, Fold)`. -/
def dec8 (v : Byte) (old : Flags) : Byte × Flags :=
  let res := v - 1
  (res,
    { s := res.getLsbD 7, z := res == 0, r5 := res.getLsbD 5, h := res.toNat % 16 == 15, r3 := res.getLsbD 3
      pv := res == 0x7F, n := true, c := old.c })

/-- R290: `DAA`, from A and the flags before to A and the flags after. -/
def daa8 (a : Byte) (old : Flags) : Byte × Flags :=
  let low := a.toNat % 16
  let corrLow : Byte := if old.h || decide (low > 9) then 0x06 else 0x00
  let corrHigh : Byte := if old.c || decide (a.toNat > 0x99) then 0x60 else 0x00
  let corr := corrLow ||| corrHigh
  let res := if old.n then a - corr else a + corr
  let half := if old.n then old.h && decide (low < 6) else decide (low > 9)
  (res,
    { s := res.getLsbD 7, z := res == 0, r5 := res.getLsbD 5, h := half, r3 := res.getLsbD 3
      pv := parity res, n := old.n, c := old.c || decide (a.toNat > 0x99) })

/-- R291: the flags of `CPL`, from the new A. -/
def cplFlags (a : Byte) (old : Flags) : Flags :=
  { old with r5 := a.getLsbD 5, h := true, r3 := a.getLsbD 3, n := true }

/-- R294: the flags of `CCF`, R5 and R3 from A (D19; log 12). -/
def ccfFlags (a : Byte) (old : Flags) : Flags :=
  { old with r5 := a.getLsbD 5, h := old.c, r3 := a.getLsbD 3, n := false, c := !old.c }

/-- R295: the flags of `SCF`, R5 and R3 from A (D19; log 12). -/
def scfFlags (a : Byte) (old : Flags) : Flags :=
  { old with r5 := a.getLsbD 5, h := false, r3 := a.getLsbD 3, n := false, c := true }

/-- R164, R165: the flags of `LD A,I` and `LD A,R`. -/
def interruptFlags (v : Byte) (iff2 : Bool) (old : Flags) : Flags :=
  { s := v.getLsbD 7, z := v == 0, r5 := v.getLsbD 5, h := false, r3 := v.getLsbD 3, pv := iff2, n := false, c := old.c }

/-- 49_io.md `SZP(v)` with C unchanged (R432); also the flags of `RLD` and `RRD` from the new A (R360, R361). -/
def szpFlags (v : Byte) (old : Flags) : Flags :=
  { s := v.getLsbD 7, z := v == 0, r5 := v.getLsbD 5, h := false, r3 := v.getLsbD 3, pv := parity v, n := false, c := old.c }

/-- The word of a natural number modulo 65,536. -/
def wordOf (n : Nat) : Word := BitVec.ofNat 16 n

/-- R310: the sum and the flags of `ADD HL,ss`. -/
def add16 (a b : Word) (old : Flags) : Word × Flags :=
  let sum := a.toNat + b.toNat
  let res := wordOf sum
  (res, { old with r5 := res.getLsbD 13, h := a.toNat % 4096 + b.toNat % 4096 > 4095, r3 := res.getLsbD 11, n := false, c := sum > 65535 })

/-- R312: the sum and the flags of `ADC HL,ss`. -/
def adc16 (a b : Word) (old : Flags) : Word × Flags :=
  let sum := a.toNat + b.toNat + carryNat old.c
  let res := wordOf sum
  (res,
    { s := res.getLsbD 15, z := res == 0, r5 := res.getLsbD 13
      h := a.toNat % 4096 + b.toNat % 4096 + carryNat old.c > 4095
      r3 := res.getLsbD 11
      pv := a.getLsbD 15 == b.getLsbD 15 && res.getLsbD 15 != a.getLsbD 15
      n := false, c := sum > 65535 })

/-- R313: the difference and the flags of `SBC HL,ss`. -/
def sbc16 (a b : Word) (old : Flags) : Word × Flags :=
  let res := wordOf (a.toNat + 131072 - b.toNat - carryNat old.c)
  (res,
    { s := res.getLsbD 15, z := res == 0, r5 := res.getLsbD 13
      h := a.toNat % 4096 < b.toNat % 4096 + carryNat old.c
      r3 := res.getLsbD 11
      pv := a.getLsbD 15 != b.getLsbD 15 && res.getLsbD 15 != a.getLsbD 15
      n := true, c := a.toNat < b.toNat + carryNat old.c })

/-- R330: the kinds of rotate and shift. -/
inductive RotKind
  | rlc | rrc | rl | rr | sla | sra | sll | srl
  deriving DecidableEq, Repr

/-- R330, the table: the result and the bit shifted out. -/
def rotate (k : RotKind) (v : Byte) (cin : Bool) : Byte × Bool :=
  match k with
  | .rlc => ((v <<< 1) ||| flagBit (v.getLsbD 7), v.getLsbD 7)
  | .rrc => ((v >>> 1) ||| (flagBit (v.getLsbD 0) <<< 7), v.getLsbD 0)
  | .rl => ((v <<< 1) ||| flagBit cin, v.getLsbD 7)
  | .rr => ((v >>> 1) ||| (flagBit cin <<< 7), v.getLsbD 0)
  | .sla => (v <<< 1, v.getLsbD 7)
  | .sra => ((v >>> 1) ||| (flagBit (v.getLsbD 7) <<< 7), v.getLsbD 0)
  | .sll => ((v <<< 1) ||| 1, v.getLsbD 7)
  | .srl => (v >>> 1, v.getLsbD 0)

/-- R330: `ROT(kind, v, cin)`. -/
def rot (k : RotKind) (v : Byte) (cin : Bool) : Byte × Flags :=
  let res := (rotate k v cin).1
  (res,
    { s := res.getLsbD 7, z := res == 0, r5 := res.getLsbD 5, h := false, r3 := res.getLsbD 3
      pv := parity res, n := false, c := (rotate k v cin).2 })

/-- R331 to R334: the one-byte accumulator rotates; S, Z and PV keep their values. -/
def rotA (k : RotKind) (a : Byte) (old : Flags) : Byte × Flags :=
  let res := (rotate k a old.c).1
  (res, { old with r5 := res.getLsbD 5, h := false, r3 := res.getLsbD 3, n := false, c := (rotate k a old.c).2 })

/-- R380: `BITF(b, v, s, Fold)`. -/
def bitFlags (b : Fin 8) (v s : Byte) (old : Flags) : Flags :=
  let t := v.getLsbD b.val
  { s := b == 7 && t, z := !t, r5 := s.getLsbD 5, h := true, r3 := s.getLsbD 3, pv := !t, n := false, c := old.c }

/-- R205: the flags of `LDI` and `LDD`, from the byte moved, A and BC after the decrement. -/
def ldiFlags (v a : Byte) (bcAfter : Word) (old : Flags) : Flags :=
  let n := v + a
  { old with r5 := n.getLsbD 1, h := false, r3 := n.getLsbD 3, pv := bcAfter != 0, n := false }

/-- R209: the flags of `CPI` and `CPD`, from A, the byte compared and BC after the decrement. -/
def cpiFlags (a v : Byte) (bcAfter : Word) (old : Flags) : Flags :=
  let res := a - v
  let half := (a ^^^ v ^^^ res).getLsbD 4
  let n := res - flagBit half
  { s := res.getLsbD 7, z := res == 0, r5 := n.getLsbD 1, h := half, r3 := n.getLsbD 3, pv := bcAfter != 0, n := true, c := old.c }

/-- R436, R440: the flags of the block input and output instructions, from the byte moved, B after the decrement, and the byte that is added to form k. -/
def blockIoFlags (v bAfter addend : Byte) : Flags :=
  let k := v.toNat + addend.toNat
  { s := bAfter.getLsbD 7, z := bAfter == 0, r5 := bAfter.getLsbD 5, h := k > 255, r3 := bAfter.getLsbD 3
    pv := parity (byteOf (k % 8) ^^^ bAfter), n := v.getLsbD 7, c := k > 255 }

end Sys2Proof.Machine
end

