-- ==== Sys2Proof/Machine/Operands.lean ====
section
/-! DEFINITION. Every operand form over State: registers, pairs, the flag byte, halves, indexed addresses, conditions (10_state.md R21, R24;
30_encoding.md R104, R108, R110; 00_scope.md R12). -/

namespace Sys2Proof.Machine

/-- R21: BC = B ++ C. -/
def State.bc (s : State) : Word := word s.b s.c

/-- R21: DE = D ++ E. -/
def State.de (s : State) : Word := word s.d s.e

/-- R21: HL = H ++ L. -/
def State.hl (s : State) : Word := word s.h s.l

/-- R21: AF = A ++ F. -/
def State.af (s : State) : Word := word s.a s.f

/-- R21: writing BC writes both halves. -/
def State.setBc (s : State) (v : Word) : State := { s with b := hi v, c := lo v }

/-- R21: writing DE writes both halves. -/
def State.setDe (s : State) (v : Word) : State := { s with d := hi v, e := lo v }

/-- R21: writing HL writes both halves. -/
def State.setHl (s : State) (v : Word) : State := { s with h := hi v, l := lo v }

/-- R21: writing AF writes both halves. -/
def State.setAf (s : State) (v : Word) : State := { s with a := hi v, f := lo v }

/-- R27: the flags by name. -/
def State.flags (s : State) : Flags := Flags.ofByte s.f

/-- R28: the flag byte is written whole; a computation that keeps a flag is given the old one. -/
def State.setFlags (s : State) (g : Flags) : State := { s with f := g.toByte }

/-- R104, table `r8` without index 6. -/
def State.reg8 (s : State) : Reg8 → Byte
  | .b => s.b | .c => s.c | .d => s.d | .e => s.e | .h => s.h | .l => s.l | .a => s.a

/-- Writing an 8-bit register leaves every other as it was (R21). -/
def State.setReg8 (s : State) (r : Reg8) (v : Byte) : State :=
  match r with
  | .b => { s with b := v }
  | .c => { s with c := v }
  | .d => { s with d := v }
  | .e => { s with e := v }
  | .h => { s with h := v }
  | .l => { s with l := v }
  | .a => { s with a := v }

/-- R104, table `rp`. -/
def State.pair (s : State) : RegPair → Word
  | .bc => s.bc | .de => s.de | .hl => s.hl | .sp => s.sp

/-- Writing a pair of table `rp`. -/
def State.setPair (s : State) (p : RegPair) (v : Word) : State :=
  match p with
  | .bc => s.setBc v
  | .de => s.setDe v
  | .hl => s.setHl v
  | .sp => { s with sp := v }

/-- R104, table `rp2`. -/
def State.stackPair (s : State) : StackPair → Word
  | .bc => s.bc | .de => s.de | .hl => s.hl | .af => s.af

/-- Writing a pair of table `rp2`. -/
def State.setStackPair (s : State) (p : StackPair) (v : Word) : State :=
  match p with
  | .bc => s.setBc v
  | .de => s.setDe v
  | .hl => s.setHl v
  | .af => s.setAf v

/-- R110: `XY`. -/
def State.index (s : State) : IndexReg → Word
  | .ix => s.ix | .iy => s.iy

/-- Writing `XY`. -/
def State.setIndex (s : State) (xy : IndexReg) (v : Word) : State :=
  match xy with
  | .ix => { s with ix := v }
  | .iy => { s with iy := v }

/-- R24: `XYH` or `XYL`. -/
def State.half (s : State) (xy : IndexReg) (p : Half) : Byte :=
  match p with
  | .high => hi (s.index xy)
  | .low => lo (s.index xy)

/-- R24: writing a half leaves the other half. -/
def State.setHalf (s : State) (xy : IndexReg) (p : Half) (v : Byte) : State :=
  match p with
  | .high => s.setIndex xy (word v (lo (s.index xy)))
  | .low => s.setIndex xy (word (hi (s.index xy)) v)

/-- 40_load8.md R168: `q = [B, C, D, E, XYH, XYL, -, A]`. -/
def State.halfReg (s : State) (xy : IndexReg) : HalfReg → Byte
  | .b => s.b | .c => s.c | .d => s.d | .e => s.e | .xyh => s.half xy .high | .xyl => s.half xy .low | .a => s.a

/-- Writing an operand of `LD q,q'`. -/
def State.setHalfReg (s : State) (xy : IndexReg) (q : HalfReg) (v : Byte) : State :=
  match q with
  | .b => { s with b := v }
  | .c => { s with c := v }
  | .d => { s with d := v }
  | .e => { s with e := v }
  | .xyh => s.setHalf xy .high v
  | .xyl => s.setHalf xy .low v
  | .a => { s with a := v }

/-- 45_alu16.md R311: `pp`, index 2 is the same index register. -/
def State.indexPair (s : State) (xy : IndexReg) : IndexPair → Word
  | .bc => s.bc | .de => s.de | .xy => s.index xy | .sp => s.sp

/-- 30_encoding.md R108: the effective address `XY + d`, wrapping. -/
def State.indexAddr (s : State) (xy : IndexReg) (d : Byte) : Word := s.index xy + sext16 d

/-- 00_scope.md R12: `cond(cc)`. -/
def State.cond (s : State) : Cond → Bool
  | .nz => !s.flags.z | .z => s.flags.z | .nc => !s.flags.c | .c => s.flags.c
  | .po => !s.flags.pv | .pe => s.flags.pv | .p => !s.flags.s | .m => s.flags.s

/-- R12, the four conditions of `JR cc,e`. -/
def State.jrCond (s : State) : JrCond → Bool
  | .nz => !s.flags.z | .z => s.flags.z | .nc => !s.flags.c | .c => s.flags.c

/-- 48_jump_call_return.md R402: the target of a relative jump, from the address after the instruction. -/
def State.relative (s : State) (e : Byte) : Word := s.pc + sext16 e

end Sys2Proof.Machine
end

