-- ==== Sys2Proof/Machine/Ops.lean ====
section
/-! DEFINITION. The named operations over memory, ports, the stack, time and the debug records (00_scope.md R9 to R11, R13; 60_exceptions.md
R506 to R509), and the acceptance of interrupts and the return from them (60_exceptions.md R473 to R480). -/

namespace Sys2Proof.Machine

/-- What an instruction, an acceptance or a step answers. -/
abbrev Result := Host.Outcome State Fault Refusal

/-! ## Memory and ports -/

/-- 20_memory.md R79: the byte that a `ReadByte` call at an address would return now: of RAM and ROM the byte there, of a device a free value (log 18). -/
def State.peek (s : State) (a : Word) : Byte :=
  match s.memMap.kindAt a with
  | .ram | .rom => s.mem.read a
  | .device => Config.deviceByte s.bus a

/-- One more call of the host's contract is on record (log 5). -/
def State.note (s : State) (e : BusEvent) : State := { s with bus := e :: s.bus }

/-- R9: `MemRead(a, 1)`. -/
def State.memRead (s : State) (a : Word) : Byte × State := (s.peek a, s.note (.readByte a (s.peek a)))

/-- The byte that a read at `b` returns right after a read at `a`: a device may answer otherwise than before (20_memory.md R77). -/
def State.peekNext (s : State) (a b : Word) : Byte := (s.memRead a).2.peek b

/-- R9: `MemWrite(a, 1, v)`: the host is called whatever kind of memory it has there (20_memory.md R79). -/
def State.memWrite (s : State) (a : Word) (v : Byte) : State :=
  { s with mem := s.mem.store s.memMap a v, bus := .writeByte a v :: s.bus }

/-- R9: `MemRead(a, 2)`, the low byte first. -/
def State.memRead16 (s : State) (a : Word) : Word × State :=
  let low := s.memRead a
  let high := low.2.memRead (a + 1)
  (word high.1 low.1, high.2)

/-- R9: `MemWrite(a, 2, v)`, the low byte first. -/
def State.memWrite16 (s : State) (a v : Word) : State := (s.memWrite a (lo v)).memWrite (a + 1) (hi v)

/-- The host's answer to the next `ReadPort` call: the first supplied answer, or a free value (log 4). -/
def State.portAnswer (s : State) (a : Word) : Byte :=
  match s.portInputs with
  | v :: _ => v
  | [] => Config.portAnswer s.portReads a

/-- R9: `PortRead(a)`. -/
def State.portRead (s : State) (a : Word) : Byte × State :=
  (s.portAnswer a,
    { s with portInputs := s.portInputs.tail, portReads := s.portReads + 1, bus := .readPort a (s.portAnswer a) :: s.bus })

/-- R9: `PortWrite(a, v)`. -/
def State.portWrite (s : State) (a : Word) (v : Byte) : State := s.note (.writePort a v)

/-- R11: `Push16(v)`, the high byte first. -/
def State.push16 (s : State) (v : Word) : State :=
  let high := { s.memWrite (s.sp - 1) (hi v) with sp := s.sp - 1 }
  { high.memWrite (high.sp - 1) (lo v) with sp := high.sp - 1 }

/-- R11: `Pop16()`, the low byte first. -/
def State.pop16 (s : State) : Word × State :=
  let low := s.memRead s.sp
  let high := low.2.memRead (s.sp + 1)
  (word high.1 low.1, { high.2 with sp := s.sp + 2 })

/-! ## Time and fetches -/

/-- R13: `Tick(n)`. -/
def State.tick (s : State) (n : Nat) : State := { s with tacts := s.tacts + n }

/-- 10_state.md R30: bits 6..0 count modulo 128, bit 7 stays. -/
def countR (r : Byte) : Byte := (r &&& 0x80) ||| ((r + 1) &&& 0x7F)

/-- R30: one opcode fetch, halted cycle or acceptance. -/
def State.bumpR (s : State) : State := { s with r := countR s.r }

/-- R10: `FetchByte()`; the byte itself is the decoder's. -/
def State.fetchByte (s : State) : State := { (s.memRead s.pc).2 with pc := s.pc + 1 }

/-- R10: `FetchOpcode()`. -/
def State.fetchOpcode (s : State) : State := s.fetchByte.bumpR

/-- `n` times `FetchOpcode()`. -/
def State.fetchOpcodes (s : State) : Nat → State
  | 0 => s
  | n + 1 => s.fetchOpcode.fetchOpcodes n

/-- `n` times `FetchByte()`. -/
def State.fetchBytes (s : State) : Nat → State
  | 0 => s
  | n + 1 => s.fetchByte.fetchBytes n

/-- The fetches of an instruction: `opcodes` times `FetchOpcode()`, then `others` times `FetchByte()` (R10). -/
def State.fetch (s : State) (opcodes others : Nat) : State := (s.fetchOpcodes opcodes).fetchBytes others

/-- The bytes that `n` reads one after another return from an address on, wrapping at the top (10_state.md R26). -/
def State.bytesAt (s : State) : Nat → Word → List Byte
  | 0, _ => []
  | n + 1, a => s.peek a :: (s.memRead a).2.bytesAt n (a + 1)

/-! ## Debug records -/

/-- R507: the start of a step: operation address and tact counter for its records (log 6). -/
def State.latch (s : State) : State := { s with opAddr := s.pc, opTacts := s.tacts }

/-- R507: `Emit(BranchEvent(...))`. -/
def State.emitBranch (s : State) (i : Instr) (taken : Bool) (target : Word) : State :=
  if s.branchObserver then
    { s with branchLog := { addr := s.opAddr, origin := .instr i, taken := taken, target := target, tact := s.opTacts } :: s.branchLog }
  else s

/-- R508: `Emit(StackPointerManipulationEvent(old SP, new SP))`. -/
def State.emitPointer (s : State) (i : Instr) (newSP : Word) : State :=
  if s.stackObserver then
    { s with stackLog := .pointer s.opAddr (.instr i) s.sp newSP s.opTacts :: s.stackLog }
  else s

/-- R509: `Emit(StackContentManipulationEvent(kind, value, old SP, new SP))`, with SP already moved. -/
def State.emitContent (s : State) (o : Origin) (access : StackAccess) (oldSP : Word) : State :=
  if s.stackObserver then
    { s with stackLog := .content s.opAddr o access oldSP s.sp s.opTacts :: s.stackLog }
  else s

/-- A push with its record (R190, R407, R413). -/
def State.pushFor (s : State) (o : Origin) (v : Word) : State := (s.push16 v).emitContent o (.push v) s.sp

/-- A pop with its record (R192, R409). -/
def State.popFor (s : State) (o : Origin) : Word × State :=
  ((s.pop16).1, (s.pop16).2.emitContent o (.pop (s.pop16).1) s.sp)

/-! ## What several instructions share -/

/-- R226: an operation on A with the operand byte. -/
def State.alu (s : State) (k : AluOp) (v : Byte) : State :=
  let res := alu8 k s.a v s.flags
  { s with a := res.1, f := res.2.toByte }

/-- R108, R153: the address of an indexed operand goes to WZ. -/
def State.indexed (s : State) (xy : IndexReg) (d : Byte) : State := { s with wz := s.indexAddr xy d }

/-- R153: the byte of an indexed operand, WZ set to its address. -/
def State.readIndexed (s : State) (xy : IndexReg) (d : Byte) : Byte × State := (s.indexed xy d).memRead (s.indexAddr xy d)

/-- A load of a pair by an instruction that reports a load of SP (R180, R183, R314, R316, R508). -/
def State.loadPair (s : State) (i : Instr) (p : RegPair) (v : Word) : State :=
  match p with
  | .sp => { s.emitPointer i v with sp := v }
  | .bc => s.setBc v
  | .de => s.setDe v
  | .hl => s.setHl v

/-- R206: the repeat mechanism of the block transfers and searches. -/
def State.repeatBlock (s : State) (again : Bool) : State :=
  if again then { s with pc := s.pc - 2, wz := s.pc - 2 + 1, tacts := s.tacts + 21 } else s.tick 16

/-- R437: the repeat of the block input and output, which leaves WZ alone. -/
def State.repeatIo (s : State) (again : Bool) : State :=
  if again then { s with pc := s.pc - 2, tacts := s.tacts + 21 } else s.tick 16

/-- R400: a jump. -/
def State.jump (s : State) (i : Instr) (target : Word) : State := { s.emitBranch i true target with pc := target }

/-- R407, R413: a call, the address after the instruction pushed. -/
def State.call (s : State) (i : Instr) (target : Word) : State :=
  { (s.emitBranch i true target).pushFor (.instr i) s.pc with pc := target, wz := target }

/-- R409: a return. -/
def State.returnFrom (s : State) (i : Instr) : State :=
  let popped := s.popFor (.instr i)
  { popped.2.emitBranch i true popped.1 with pc := popped.1, wz := popped.1 }

/-! ## Taking an interrupt and returning from it -/

/-- R473: what the acceptance of a maskable interrupt does before it finds its target, in every mode. -/
def State.enterInt (s : State) : State :=
  ({ s with intPending := false, halted := false, iff1 := false, iff2 := false }).bumpR.push16 s.pc

/-- R473, R477: the end of an acceptance: the target to PC and WZ, the T-states, the record with the PC and SP of before. -/
def State.enterAt (s : State) (o : Origin) (target : Word) (tStates : Nat) (oldPC oldSP : Word) : State :=
  ({ s with pc := target, wz := target, tacts := s.tacts + tStates }).emitContent o (.push oldPC) oldSP

/-- R474: the byte is one of the eight `RST p` opcodes. -/
def isRst (b : Byte) : Bool := b &&& 0xC7 == 0xC7

/-- R473 to R476: the acceptance of a maskable interrupt, a step of its own. -/
def State.acceptInt (s : State) : Result :=
  let t := s.latch
  match s.im with
  | .im0 =>
    if isRst s.intBus then .next (t.enterInt.enterAt .int (word 0 (s.intBus &&& 0x38)) 13 s.pc s.sp)
    else .refused .im0Response
  | .im1 => .next (t.enterInt.enterAt .int Config.im1Vector 13 s.pc s.sp)
  | .im2 =>
    let entry := t.enterInt.memRead16 (word s.i s.intBus)
    .next (entry.2.enterAt .int entry.1 19 s.pc s.sp)

/-- R477: the acceptance of a non-maskable interrupt, a step of its own. -/
def State.acceptNmi (s : State) : State :=
  let t := s.latch
  let entered := { t with nmiPending := false, halted := false, eiDelay := false, iff2 := t.iff1, iff1 := false }
  (entered.bumpR.push16 s.pc).enterAt .nmi Config.nmiVector 11 s.pc s.sp

/-- 44_general_control.md R297: the halted cycle. -/
def State.haltedCycle (s : State) : State := ({ s with eiDelay := false }).bumpR.tick 4

/-- R480: the return of `RETN` and `RETI`. -/
def State.returnFromInterrupt (s : State) (i : Instr) : State :=
  { s.returnFrom i with iff1 := s.iff2 }

end Sys2Proof.Machine
end

