-- ==== Sys2Proof/Machine/Alu16.lean ====
section
/-! DEFINITION. The meanings of 16-bit arithmetic (45_alu16.md R310 to R317). The fetches are done when a meaning runs: PC is past the instruction
and R has counted (30_encoding.md R102). Each adds its whole T-state figure, which includes one governing prefix (R124). -/

namespace Sys2Proof.Machine

/-- ADD HL,ss (R310). -/
def execAddHlSs (ss : RegPair) (s : State) : Result :=
  let res := add16 s.hl (s.pair ss) s.flags
  .next { (s.setHl res.1).setFlags res.2 with wz := s.hl + 1, tacts := s.tacts + 11 }

/-- ADD IX,pp (R311). -/
def execAddIxPp (pp : IndexPair) (s : State) : Result :=
  let res := add16 s.ix (s.indexPair .ix pp) s.flags
  .next { s.setFlags res.2 with ix := res.1, wz := s.ix + 1, tacts := s.tacts + 15 }

/-- ADD IY,pp (R311). -/
def execAddIyPp (pp : IndexPair) (s : State) : Result :=
  let res := add16 s.iy (s.indexPair .iy pp) s.flags
  .next { s.setFlags res.2 with iy := res.1, wz := s.iy + 1, tacts := s.tacts + 15 }

/-- ADC HL,ss (R312). -/
def execAdcHlSs (ss : RegPair) (s : State) : Result :=
  let res := adc16 s.hl (s.pair ss) s.flags
  .next { (s.setHl res.1).setFlags res.2 with wz := s.hl + 1, tacts := s.tacts + 15 }

/-- SBC HL,ss (R313). -/
def execSbcHlSs (ss : RegPair) (s : State) : Result :=
  let res := sbc16 s.hl (s.pair ss) s.flags
  .next { (s.setHl res.1).setFlags res.2 with wz := s.hl + 1, tacts := s.tacts + 15 }

/-- INC ss (R314). -/
def execIncSs (ss : RegPair) (s : State) : Result := .next ((s.loadPair (.incSs ss) ss (s.pair ss + 1)).tick 6)

/-- INC IX (R315). -/
def execIncIx (s : State) : Result := .next { s with ix := s.ix + 1, tacts := s.tacts + 10 }

/-- INC IY (R315). -/
def execIncIy (s : State) : Result := .next { s with iy := s.iy + 1, tacts := s.tacts + 10 }

/-- DEC ss (R316). -/
def execDecSs (ss : RegPair) (s : State) : Result := .next ((s.loadPair (.decSs ss) ss (s.pair ss - 1)).tick 6)

/-- DEC IX (R317). -/
def execDecIx (s : State) : Result := .next { s with ix := s.ix - 1, tacts := s.tacts + 10 }

/-- DEC IY (R317). -/
def execDecIy (s : State) : Result := .next { s with iy := s.iy - 1, tacts := s.tacts + 10 }

end Sys2Proof.Machine
end

