-- ==== Sys2Proof/Machine/Alu8.lean ====
section
/-! DEFINITION. The meanings of 8-bit arithmetic and logic (43_alu8.md R230 to R277). The fetches are done when a meaning runs: PC is past the instruction
and R has counted (30_encoding.md R102). Each adds its whole T-state figure, which includes one governing prefix (R124). -/

namespace Sys2Proof.Machine

/-- ADD A,r (R230). -/
def execAddAR (r : Reg8) (s : State) : Result := .next ((s.alu .add (s.reg8 r)).tick 4)

/-- ADD A,n (R231). -/
def execAddAN (n : Byte) (s : State) : Result := .next ((s.alu .add n).tick 7)

/-- ADD A,(HL) (R232). -/
def execAddAMemHl (s : State) : Result :=
  let m := s.memRead s.hl
  .next ((m.2.alu .add m.1).tick 7)

/-- ADD A,(IX+d) (R233). -/
def execAddAMemIx (d : Byte) (s : State) : Result :=
  let m := s.readIndexed .ix d
  .next ((m.2.alu .add m.1).tick 19)

/-- ADD A,(IY+d) (R233). -/
def execAddAMemIy (d : Byte) (s : State) : Result :=
  let m := s.readIndexed .iy d
  .next ((m.2.alu .add m.1).tick 19)

/-- ADD A,p (R234). -/
def execAddAP (xy : IndexReg) (p : Half) (s : State) : Result := .next ((s.alu .add (s.half xy p)).tick 8)

/-- ADC A,r (R235). -/
def execAdcAR (r : Reg8) (s : State) : Result := .next ((s.alu .adc (s.reg8 r)).tick 4)

/-- ADC A,n (R236). -/
def execAdcAN (n : Byte) (s : State) : Result := .next ((s.alu .adc n).tick 7)

/-- ADC A,(HL) (R237). -/
def execAdcAMemHl (s : State) : Result :=
  let m := s.memRead s.hl
  .next ((m.2.alu .adc m.1).tick 7)

/-- ADC A,(IX+d) (R238). -/
def execAdcAMemIx (d : Byte) (s : State) : Result :=
  let m := s.readIndexed .ix d
  .next ((m.2.alu .adc m.1).tick 19)

/-- ADC A,(IY+d) (R238). -/
def execAdcAMemIy (d : Byte) (s : State) : Result :=
  let m := s.readIndexed .iy d
  .next ((m.2.alu .adc m.1).tick 19)

/-- ADC A,p (R239). -/
def execAdcAP (xy : IndexReg) (p : Half) (s : State) : Result := .next ((s.alu .adc (s.half xy p)).tick 8)

/-- SUB r (R240). -/
def execSubR (r : Reg8) (s : State) : Result := .next ((s.alu .sub (s.reg8 r)).tick 4)

/-- SUB n (R241). -/
def execSubN (n : Byte) (s : State) : Result := .next ((s.alu .sub n).tick 7)

/-- SUB (HL) (R242). -/
def execSubMemHl (s : State) : Result :=
  let m := s.memRead s.hl
  .next ((m.2.alu .sub m.1).tick 7)

/-- SUB (IX+d) (R243). -/
def execSubMemIx (d : Byte) (s : State) : Result :=
  let m := s.readIndexed .ix d
  .next ((m.2.alu .sub m.1).tick 19)

/-- SUB (IY+d) (R243). -/
def execSubMemIy (d : Byte) (s : State) : Result :=
  let m := s.readIndexed .iy d
  .next ((m.2.alu .sub m.1).tick 19)

/-- SUB p (R244). -/
def execSubP (xy : IndexReg) (p : Half) (s : State) : Result := .next ((s.alu .sub (s.half xy p)).tick 8)

/-- SBC A,r (R245). -/
def execSbcAR (r : Reg8) (s : State) : Result := .next ((s.alu .sbc (s.reg8 r)).tick 4)

/-- SBC A,n (R246). -/
def execSbcAN (n : Byte) (s : State) : Result := .next ((s.alu .sbc n).tick 7)

/-- SBC A,(HL) (R247). -/
def execSbcAMemHl (s : State) : Result :=
  let m := s.memRead s.hl
  .next ((m.2.alu .sbc m.1).tick 7)

/-- SBC A,(IX+d) (R248). -/
def execSbcAMemIx (d : Byte) (s : State) : Result :=
  let m := s.readIndexed .ix d
  .next ((m.2.alu .sbc m.1).tick 19)

/-- SBC A,(IY+d) (R248). -/
def execSbcAMemIy (d : Byte) (s : State) : Result :=
  let m := s.readIndexed .iy d
  .next ((m.2.alu .sbc m.1).tick 19)

/-- SBC A,p (R249). -/
def execSbcAP (xy : IndexReg) (p : Half) (s : State) : Result := .next ((s.alu .sbc (s.half xy p)).tick 8)

/-- AND r (R250). -/
def execAndR (r : Reg8) (s : State) : Result := .next ((s.alu .and (s.reg8 r)).tick 4)

/-- AND n (R251). -/
def execAndN (n : Byte) (s : State) : Result := .next ((s.alu .and n).tick 7)

/-- AND (HL) (R252). -/
def execAndMemHl (s : State) : Result :=
  let m := s.memRead s.hl
  .next ((m.2.alu .and m.1).tick 7)

/-- AND (IX+d) (R253). -/
def execAndMemIx (d : Byte) (s : State) : Result :=
  let m := s.readIndexed .ix d
  .next ((m.2.alu .and m.1).tick 19)

/-- AND (IY+d) (R253). -/
def execAndMemIy (d : Byte) (s : State) : Result :=
  let m := s.readIndexed .iy d
  .next ((m.2.alu .and m.1).tick 19)

/-- AND p (R254). -/
def execAndP (xy : IndexReg) (p : Half) (s : State) : Result := .next ((s.alu .and (s.half xy p)).tick 8)

/-- XOR r (R255). -/
def execXorR (r : Reg8) (s : State) : Result := .next ((s.alu .xor (s.reg8 r)).tick 4)

/-- XOR n (R256). -/
def execXorN (n : Byte) (s : State) : Result := .next ((s.alu .xor n).tick 7)

/-- XOR (HL) (R257). -/
def execXorMemHl (s : State) : Result :=
  let m := s.memRead s.hl
  .next ((m.2.alu .xor m.1).tick 7)

/-- XOR (IX+d) (R258). -/
def execXorMemIx (d : Byte) (s : State) : Result :=
  let m := s.readIndexed .ix d
  .next ((m.2.alu .xor m.1).tick 19)

/-- XOR (IY+d) (R258). -/
def execXorMemIy (d : Byte) (s : State) : Result :=
  let m := s.readIndexed .iy d
  .next ((m.2.alu .xor m.1).tick 19)

/-- XOR p (R259). -/
def execXorP (xy : IndexReg) (p : Half) (s : State) : Result := .next ((s.alu .xor (s.half xy p)).tick 8)

/-- OR r (R260). -/
def execOrR (r : Reg8) (s : State) : Result := .next ((s.alu .or (s.reg8 r)).tick 4)

/-- OR n (R261). -/
def execOrN (n : Byte) (s : State) : Result := .next ((s.alu .or n).tick 7)

/-- OR (HL) (R262). -/
def execOrMemHl (s : State) : Result :=
  let m := s.memRead s.hl
  .next ((m.2.alu .or m.1).tick 7)

/-- OR (IX+d) (R263). -/
def execOrMemIx (d : Byte) (s : State) : Result :=
  let m := s.readIndexed .ix d
  .next ((m.2.alu .or m.1).tick 19)

/-- OR (IY+d) (R263). -/
def execOrMemIy (d : Byte) (s : State) : Result :=
  let m := s.readIndexed .iy d
  .next ((m.2.alu .or m.1).tick 19)

/-- OR p (R264). -/
def execOrP (xy : IndexReg) (p : Half) (s : State) : Result := .next ((s.alu .or (s.half xy p)).tick 8)

/-- CP r (R265). -/
def execCpR (r : Reg8) (s : State) : Result := .next ((s.alu .cp (s.reg8 r)).tick 4)

/-- CP n (R266). -/
def execCpN (n : Byte) (s : State) : Result := .next ((s.alu .cp n).tick 7)

/-- CP (HL) (R267). -/
def execCpMemHl (s : State) : Result :=
  let m := s.memRead s.hl
  .next ((m.2.alu .cp m.1).tick 7)

/-- CP (IX+d) (R268). -/
def execCpMemIx (d : Byte) (s : State) : Result :=
  let m := s.readIndexed .ix d
  .next ((m.2.alu .cp m.1).tick 19)

/-- CP (IY+d) (R268). -/
def execCpMemIy (d : Byte) (s : State) : Result :=
  let m := s.readIndexed .iy d
  .next ((m.2.alu .cp m.1).tick 19)

/-- CP p (R269). -/
def execCpP (xy : IndexReg) (p : Half) (s : State) : Result := .next ((s.alu .cp (s.half xy p)).tick 8)

/-- INC r (R270). -/
def execIncR (r : Reg8) (s : State) : Result :=
  .next (((s.setReg8 r (inc8 (s.reg8 r) s.flags).1).setFlags (inc8 (s.reg8 r) s.flags).2).tick 4)

/-- INC (HL) (R271). -/
def execIncMemHl (s : State) : Result :=
  let m := s.memRead s.hl
  .next (((m.2.memWrite s.hl (inc8 m.1 s.flags).1).setFlags (inc8 m.1 s.flags).2).tick 11)

/-- INC (IX+d) (R272). -/
def execIncMemIx (d : Byte) (s : State) : Result :=
  let m := s.readIndexed .ix d
  .next (((m.2.memWrite (s.indexAddr .ix d) (inc8 m.1 s.flags).1).setFlags (inc8 m.1 s.flags).2).tick 23)

/-- INC (IY+d) (R272). -/
def execIncMemIy (d : Byte) (s : State) : Result :=
  let m := s.readIndexed .iy d
  .next (((m.2.memWrite (s.indexAddr .iy d) (inc8 m.1 s.flags).1).setFlags (inc8 m.1 s.flags).2).tick 23)

/-- INC p, p a half of IX or IY (R273). -/
def execIncP (xy : IndexReg) (p : Half) (s : State) : Result :=
  .next (((s.setHalf xy p (inc8 (s.half xy p) s.flags).1).setFlags (inc8 (s.half xy p) s.flags).2).tick 8)

/-- DEC r (R274). -/
def execDecR (r : Reg8) (s : State) : Result :=
  .next (((s.setReg8 r (dec8 (s.reg8 r) s.flags).1).setFlags (dec8 (s.reg8 r) s.flags).2).tick 4)

/-- DEC (HL) (R275). -/
def execDecMemHl (s : State) : Result :=
  let m := s.memRead s.hl
  .next (((m.2.memWrite s.hl (dec8 m.1 s.flags).1).setFlags (dec8 m.1 s.flags).2).tick 11)

/-- DEC (IX+d) (R276). -/
def execDecMemIx (d : Byte) (s : State) : Result :=
  let m := s.readIndexed .ix d
  .next (((m.2.memWrite (s.indexAddr .ix d) (dec8 m.1 s.flags).1).setFlags (dec8 m.1 s.flags).2).tick 23)

/-- DEC (IY+d) (R276). -/
def execDecMemIy (d : Byte) (s : State) : Result :=
  let m := s.readIndexed .iy d
  .next (((m.2.memWrite (s.indexAddr .iy d) (dec8 m.1 s.flags).1).setFlags (dec8 m.1 s.flags).2).tick 23)

/-- DEC p (R277). -/
def execDecP (xy : IndexReg) (p : Half) (s : State) : Result :=
  .next (((s.setHalf xy p (dec8 (s.half xy p) s.flags).1).setFlags (dec8 (s.half xy p) s.flags).2).tick 8)

end Sys2Proof.Machine
end

