-- ==== Sys2Proof/Machine/Bit.lean ====
section
/-! DEFINITION. The meanings of bit test, set and reset (47_bit.md R381 to R389). The fetches are done when a meaning runs: PC is past the instruction
and R has counted (30_encoding.md R102). Each adds its whole T-state figure, which includes one governing prefix (R124). -/

namespace Sys2Proof.Machine

/-- R384: `v | (1 << b)`. -/
def setBit (b : Fin 8) (v : Byte) : Byte := v ||| bitMask b

/-- R387: `v & ~(1 << b)`. -/
def resBit (b : Fin 8) (v : Byte) : Byte := v &&& ~~~(bitMask b)

/-- R385, R386, R388, R389: the byte at an address read once and written back changed. -/
def State.modifyAt (s : State) (g : Byte → Byte) (a : Word) : State :=
  let m := s.memRead a
  m.2.memWrite a (g m.1)

/-- R382, R383: the test of a bit of the byte at an address; the byte `source` gives R5 and R3. -/
def State.testAt (s : State) (b : Fin 8) (a : Word) (source : Byte) : State :=
  let m := s.memRead a
  m.2.setFlags (bitFlags b m.1 source s.flags)

/-- BIT b,r (R381). -/
def execBitBR (b : Fin 8) (r : Reg8) (s : State) : Result := .next ((s.setFlags (bitFlags b (s.reg8 r) (s.reg8 r) s.flags)).tick 8)

/-- BIT b,(HL) (R382). -/
def execBitBMemHl (b : Fin 8) (s : State) : Result := .next ((s.testAt b s.hl (hi s.wz)).tick 12)

/-- BIT b,(IX+d) (R383). -/
def execBitBMemIx (b : Fin 8) (d : Byte) (s : State) : Result :=
  .next (((s.indexed .ix d).testAt b (s.indexAddr .ix d) (hi (s.indexAddr .ix d))).tick 20)

/-- BIT b,(IY+d) (R383). -/
def execBitBMemIy (b : Fin 8) (d : Byte) (s : State) : Result :=
  .next (((s.indexed .iy d).testAt b (s.indexAddr .iy d) (hi (s.indexAddr .iy d))).tick 20)

/-- BIT b,(IX+d), the undocumented duplicates with z other than 6; z is ignored (R383). -/
def execBitBMemIxZ (b : Fin 8) (d : Byte) (_z : Reg8) (s : State) : Result :=
  .next (((s.indexed .ix d).testAt b (s.indexAddr .ix d) (hi (s.indexAddr .ix d))).tick 20)

/-- BIT b,(IY+d), the undocumented duplicates with z other than 6; z is ignored (R383). -/
def execBitBMemIyZ (b : Fin 8) (d : Byte) (_z : Reg8) (s : State) : Result :=
  .next (((s.indexed .iy d).testAt b (s.indexAddr .iy d) (hi (s.indexAddr .iy d))).tick 20)

/-- SET b,r (R384). -/
def execSetBR (b : Fin 8) (r : Reg8) (s : State) : Result := .next ((s.setReg8 r (setBit b (s.reg8 r))).tick 8)

/-- SET b,(HL) (R385). -/
def execSetBMemHl (b : Fin 8) (s : State) : Result := .next ((s.modifyAt (setBit b) s.hl).tick 15)

/-- SET b,(IX+d) (R386). -/
def execSetBMemIx (b : Fin 8) (d : Byte) (s : State) : Result :=
  .next (((s.indexed .ix d).modifyAt (setBit b) (s.indexAddr .ix d)).tick 23)

/-- SET b,(IY+d) (R386). -/
def execSetBMemIy (b : Fin 8) (d : Byte) (s : State) : Result :=
  .next (((s.indexed .iy d).modifyAt (setBit b) (s.indexAddr .iy d)).tick 23)

/-- SET b,(IX+d),r (R386). -/
def execSetBMemIxR (b : Fin 8) (d : Byte) (r : Reg8) (s : State) : Result :=
  .next ((((s.indexed .ix d).modifyAt (setBit b) (s.indexAddr .ix d)).setReg8 r (setBit b (s.peek (s.indexAddr .ix d)))).tick 23)

/-- SET b,(IY+d),r (R386). -/
def execSetBMemIyR (b : Fin 8) (d : Byte) (r : Reg8) (s : State) : Result :=
  .next ((((s.indexed .iy d).modifyAt (setBit b) (s.indexAddr .iy d)).setReg8 r (setBit b (s.peek (s.indexAddr .iy d)))).tick 23)

/-- RES b,r (R387). -/
def execResBR (b : Fin 8) (r : Reg8) (s : State) : Result := .next ((s.setReg8 r (resBit b (s.reg8 r))).tick 8)

/-- RES b,(HL) (R388). -/
def execResBMemHl (b : Fin 8) (s : State) : Result := .next ((s.modifyAt (resBit b) s.hl).tick 15)

/-- RES b,(IX+d) (R389). -/
def execResBMemIx (b : Fin 8) (d : Byte) (s : State) : Result :=
  .next (((s.indexed .ix d).modifyAt (resBit b) (s.indexAddr .ix d)).tick 23)

/-- RES b,(IY+d) (R389). -/
def execResBMemIy (b : Fin 8) (d : Byte) (s : State) : Result :=
  .next (((s.indexed .iy d).modifyAt (resBit b) (s.indexAddr .iy d)).tick 23)

/-- RES b,(IX+d),r (R389). -/
def execResBMemIxR (b : Fin 8) (d : Byte) (r : Reg8) (s : State) : Result :=
  .next ((((s.indexed .ix d).modifyAt (resBit b) (s.indexAddr .ix d)).setReg8 r (resBit b (s.peek (s.indexAddr .ix d)))).tick 23)

/-- RES b,(IY+d),r (R389). -/
def execResBMemIyR (b : Fin 8) (d : Byte) (r : Reg8) (s : State) : Result :=
  .next ((((s.indexed .iy d).modifyAt (resBit b) (s.indexAddr .iy d)).setReg8 r (resBit b (s.peek (s.indexAddr .iy d)))).tick 23)

end Sys2Proof.Machine
end

