-- ==== Sys2Proof/Machine/Control.lean ====
section
/-! DEFINITION. The meanings of general-purpose arithmetic and CPU control (44_general_control.md R290 to R303). The fetches are done when a meaning runs: PC is past the instruction
and R has counted (30_encoding.md R102). Each adds its whole T-state figure, which includes one governing prefix (R124). -/

namespace Sys2Proof.Machine

/-- DAA (R290). -/
def execDaa (s : State) : Result := .next (({ s with a := (daa8 s.a s.flags).1 }).setFlags (daa8 s.a s.flags).2 |>.tick 4)

/-- CPL (R291). -/
def execCpl (s : State) : Result := .next (({ s with a := ~~~s.a }).setFlags (cplFlags (~~~s.a) s.flags) |>.tick 4)

/-- NOP (R292). -/
def execNop (s : State) : Result := .next (s.tick 4)

/-- NEG (R293); y = 0 is the documented encoding, the others its duplicates. -/
def execNeg (_y : Fin 8) (s : State) : Result := .next (({ s with a := (sub8 0 s.a false).1 }).setFlags (sub8 0 s.a false).2 |>.tick 8)

/-- CCF (R294). -/
def execCcf (s : State) : Result := .next ((s.setFlags (ccfFlags s.a s.flags)).tick 4)

/-- SCF (R295). -/
def execScf (s : State) : Result := .next ((s.setFlags (scfFlags s.a s.flags)).tick 4)

/-- HALT (R296). -/
def execHalt (s : State) : Result := .next { s with halted := true, tacts := s.tacts + 4 }

/-- DI (R298). -/
def execDi (s : State) : Result := .next { s with iff1 := false, iff2 := false, tacts := s.tacts + 4 }

/-- EI (R299). -/
def execEi (s : State) : Result := .next { s with iff1 := true, iff2 := true, eiDelay := true, tacts := s.tacts + 4 }

/-- IM 0 (R300); x5 and x3 are the two ignored bits of the opcode byte. -/
def execIm0 (_x5 : Bool) (_x3 : Bool) (s : State) : Result := .next { s with im := .im0, tacts := s.tacts + 8 }

/-- IM 1 (R301); x5 is the ignored bit of the opcode byte. -/
def execIm1 (_x5 : Bool) (s : State) : Result := .next { s with im := .im1, tacts := s.tacts + 8 }

/-- IM 2 (R302); x5 is the ignored bit of the opcode byte. -/
def execIm2 (_x5 : Bool) (s : State) : Result := .next { s with im := .im2, tacts := s.tacts + 8 }

/-- an undefined ED opcode, a no-operation (R116, R303). -/
def execNopEd (_op : Byte) (s : State) : Result := .next (s.tick 8)

end Sys2Proof.Machine
end

