-- ==== Sys2Proof/Machine/Exchange.lean ====
section
/-! DEFINITION. The meanings of exchanges, block transfer and block search (42_exchange_block.md R200 to R212). The fetches are done when a meaning runs: PC is past the instruction
and R has counted (30_encoding.md R102). Each adds its whole T-state figure, which includes one governing prefix (R124). -/

namespace Sys2Proof.Machine

/-- R205: the byte moved, with the step of HL and DE and the count in BC. -/
def State.moveBlock (s : State) (delta : Word) : State :=
  let m := s.memRead s.hl
  let t := m.2.memWrite s.de m.1
  (((t.setHl (s.hl + delta)).setDe (s.de + delta)).setBc (s.bc - 1)).setFlags (ldiFlags m.1 s.a (s.bc - 1) s.flags)

/-- R209: the byte compared with A, with the step of HL and WZ and the count in BC. -/
def State.compareBlock (s : State) (delta : Word) : State :=
  let m := s.memRead s.hl
  { ((m.2.setHl (s.hl + delta)).setBc (s.bc - 1)).setFlags (cpiFlags s.a m.1 (s.bc - 1) s.flags) with wz := s.wz + delta }

/-- R203: the exchange of a pair's value with the top of the stack: the value read, and the state after the two reads and the two writes. -/
def State.exchangeTop (s : State) (i : Instr) (v : Word) : Word × State :=
  let m := s.memRead16 s.sp
  let t := (m.2.memWrite (s.sp + 1) (hi v)).memWrite s.sp (lo v)
  (m.1, t.emitContent (.instr i) (.exchange m.1 v) s.sp)

/-- EX DE,HL (R200). -/
def execExDeHl (s : State) : Result := .next ((s.setDe s.hl).setHl s.de |>.tick 4)

/-- EX AF,AF' (R201). -/
def execExAfAf (s : State) : Result := .next { s with a := s.a', f := s.f', a' := s.a, f' := s.f, tacts := s.tacts + 4 }

/-- EXX (R202). -/
def execExx (s : State) : Result :=
  .next { s with
    b := s.b', c := s.c', d := s.d', e := s.e', h := s.h', l := s.l',
    b' := s.b, c' := s.c, d' := s.d, e' := s.e, h' := s.h, l' := s.l, tacts := s.tacts + 4 }

/-- EX (SP),HL (R203). -/
def execExMemSpHl (s : State) : Result :=
  let m := s.exchangeTop .exMemSpHl s.hl
  .next { m.2.setHl m.1 with wz := m.1, tacts := s.tacts + 19 }

/-- EX (SP),IX (R204). -/
def execExMemSpIx (s : State) : Result :=
  let m := s.exchangeTop .exMemSpIx s.ix
  .next { m.2 with ix := m.1, wz := m.1, tacts := s.tacts + 23 }

/-- EX (SP),IY (R204). -/
def execExMemSpIy (s : State) : Result :=
  let m := s.exchangeTop .exMemSpIy s.iy
  .next { m.2 with iy := m.1, wz := m.1, tacts := s.tacts + 23 }

/-- LDI (R205). -/
def execLdi (s : State) : Result := .next ((s.moveBlock 1).tick 16)

/-- LDD (R207). -/
def execLdd (s : State) : Result := .next ((s.moveBlock (-1)).tick 16)

/-- CPI (R209). -/
def execCpi (s : State) : Result := .next ((s.compareBlock 1).tick 16)

/-- CPD (R211). -/
def execCpd (s : State) : Result := .next ((s.compareBlock (-1)).tick 16)

/-- LDIR (R206). -/
def execLdir (s : State) : Result :=
  let t := s.moveBlock 1
  .next (t.repeatBlock (t.bc != 0))

/-- LDDR (R208). -/
def execLddr (s : State) : Result :=
  let t := s.moveBlock (-1)
  .next (t.repeatBlock (t.bc != 0))

/-- CPIR (R210). -/
def execCpir (s : State) : Result :=
  let t := s.compareBlock 1
  .next (t.repeatBlock (t.bc != 0 && !t.flags.z))

/-- CPDR (R212). -/
def execCpdr (s : State) : Result :=
  let t := s.compareBlock (-1)
  .next (t.repeatBlock (t.bc != 0 && !t.flags.z))

end Sys2Proof.Machine
end

