-- ==== Sys2Proof/Machine/Io.lean ====
section
/-! DEFINITION. The meanings of input and output (49_io.md R430 to R443). The fetches are done when a meaning runs: PC is past the instruction
and R has counted (30_encoding.md R102). Each adds its whole T-state figure, which includes one governing prefix (R124). -/

namespace Sys2Proof.Machine

/-- R436, R438: one block input: HL steps by `delta`, WZ is BC before the decrement stepped, `addend` is C stepped. -/
def State.inBlock (s : State) (delta : Word) (addend : Byte) : State :=
  let p := s.portRead s.bc
  { (p.2.memWrite s.hl p.1).setHl (s.hl + delta) with
    b := s.b - 1, wz := s.bc + delta, f := (blockIoFlags p.1 (s.b - 1) addend).toByte }

/-- R440, R442: one block output: B counts down before the port write, HL steps by `delta`, WZ is the new BC stepped, the new L is the addend. -/
def State.outBlock (s : State) (delta : Word) : State :=
  let m := s.memRead s.hl
  let port := word (s.b - 1) s.c
  { (m.2.portWrite port m.1).setHl (s.hl + delta) with
    b := s.b - 1, wz := port + delta, f := (blockIoFlags m.1 (s.b - 1) (lo (s.hl + delta))).toByte }

/-- IN A,(n) (R430). -/
def execInAN (n : Byte) (s : State) : Result :=
  let p := s.portRead (word s.a n)
  .next { p.2 with a := p.1, wz := word s.a n + 1, tacts := s.tacts + 11 }

/-- OUT (n),A (R431). -/
def execOutNA (n : Byte) (s : State) : Result := .next { s.portWrite (word s.a n) s.a with wz := word s.a (n + 1), tacts := s.tacts + 11 }

/-- IN r,(C) (R432). -/
def execInRC (r : Reg8) (s : State) : Result :=
  let p := s.portRead s.bc
  .next { (p.2.setReg8 r p.1).setFlags (szpFlags p.1 s.flags) with wz := s.bc + 1, tacts := s.tacts + 12 }

/-- IN (C) (R433). -/
def execInC (s : State) : Result :=
  let p := s.portRead s.bc
  .next { p.2.setFlags (szpFlags p.1 s.flags) with wz := s.bc + 1, tacts := s.tacts + 12 }

/-- OUT (C),r (R434). -/
def execOutCR (r : Reg8) (s : State) : Result := .next { s.portWrite s.bc (s.reg8 r) with wz := s.bc + 1, tacts := s.tacts + 12 }

/-- OUT (C),0 (R435). -/
def execOutC0 (s : State) : Result := .next { s.portWrite s.bc Config.outCZeroByte with wz := s.bc + 1, tacts := s.tacts + 12 }

/-- INI (R436). -/
def execIni (s : State) : Result := .next ((s.inBlock 1 (s.c + 1)).tick 16)

/-- IND (R438). -/
def execInd (s : State) : Result := .next ((s.inBlock (-1) (s.c - 1)).tick 16)

/-- OUTI (R440). -/
def execOuti (s : State) : Result := .next ((s.outBlock 1).tick 16)

/-- OUTD (R442). -/
def execOutd (s : State) : Result := .next ((s.outBlock (-1)).tick 16)

/-- INIR (R437). -/
def execInir (s : State) : Result :=
  let t := s.inBlock 1 (s.c + 1)
  .next (t.repeatIo (t.b != 0))

/-- INDR (R439). -/
def execIndr (s : State) : Result :=
  let t := s.inBlock (-1) (s.c - 1)
  .next (t.repeatIo (t.b != 0))

/-- OTIR (R441). -/
def execOtir (s : State) : Result :=
  let t := s.outBlock 1
  .next (t.repeatIo (t.b != 0))

/-- OTDR (R443). -/
def execOtdr (s : State) : Result :=
  let t := s.outBlock (-1)
  .next (t.repeatIo (t.b != 0))

end Sys2Proof.Machine
end

