-- ==== Sys2Proof/Machine/Jump.lean ====
section
/-! DEFINITION. The meanings of jumps, calls and returns (48_jump_call_return.md R400 to R413). The fetches are done when a meaning runs: PC is past the instruction
and R has counted (30_encoding.md R102). Each adds its whole T-state figure, which includes one governing prefix (R124). -/

namespace Sys2Proof.Machine

/-- JP nn (R400). -/
def execJpNn (nn : Word) (s : State) : Result := .next ((({ s with wz := nn }).jump (.jpNn nn) nn).tick 10)

/-- JP cc,nn (R401). -/
def execJpCcNn (cc : Cond) (nn : Word) (s : State) : Result :=
  if s.cond cc then .next ((({ s with wz := nn }).jump (.jpCcNn cc nn) nn).tick 10)
  else .next ((({ s with wz := nn }).emitBranch (.jpCcNn cc nn) false nn).tick 10)

/-- JR e (R402). -/
def execJr (e : Byte) (s : State) : Result := .next { s.jump (.jr e) (s.relative e) with wz := s.relative e, tacts := s.tacts + 12 }

/-- JR cc,e (R403). -/
def execJrCc (cc : JrCond) (e : Byte) (s : State) : Result :=
  if s.jrCond cc then .next { s.jump (.jrCc cc e) (s.relative e) with wz := s.relative e, tacts := s.tacts + 12 }
  else .next ((s.emitBranch (.jrCc cc e) false (s.relative e)).tick 7)

/-- JP (HL) (R404). -/
def execJpHl (s : State) : Result := .next ((s.jump .jpHl s.hl).tick 4)

/-- JP (IX) (R405). -/
def execJpIx (s : State) : Result := .next ((s.jump .jpIx s.ix).tick 8)

/-- JP (IY) (R405). -/
def execJpIy (s : State) : Result := .next ((s.jump .jpIy s.iy).tick 8)

/-- DJNZ e (R406). -/
def execDjnz (e : Byte) (s : State) : Result :=
  let t := { s with b := s.b - 1 }
  if t.b != 0 then .next { t.jump (.djnz e) (s.relative e) with wz := s.relative e, tacts := s.tacts + 13 }
  else .next ((t.emitBranch (.djnz e) false (s.relative e)).tick 8)

/-- CALL nn (R407). -/
def execCallNn (nn : Word) (s : State) : Result := .next ((s.call (.callNn nn) nn).tick 17)

/-- CALL cc,nn (R408). -/
def execCallCcNn (cc : Cond) (nn : Word) (s : State) : Result :=
  if s.cond cc then .next ((s.call (.callCcNn cc nn) nn).tick 17)
  else .next ((({ s with wz := nn }).emitBranch (.callCcNn cc nn) false nn).tick 10)

/-- RST p, p = 8 * t (R413). -/
def execRst (t : Fin 8) (s : State) : Result := .next ((s.call (.rst t) (word 0 (index3 t <<< 3))).tick 11)

/-- RET (R409). -/
def execRet (s : State) : Result := .next ((s.returnFrom .ret).tick 10)

/-- RET cc (R410). -/
def execRetCc (cc : Cond) (s : State) : Result :=
  if s.cond cc then .next ((s.returnFrom (.retCc cc)).tick 11)
  else .next ((s.emitBranch (.retCc cc) false s.pc).tick 5)

/-- RETI (R411). -/
def execReti (s : State) : Result := .next ((s.returnFromInterrupt .reti).tick 14)

/-- RETN (R412); y = 0 is the documented encoding, y = 1 is RETI, the others duplicates. -/
def execRetn (y : Fin 8) (s : State) : Result := .next ((s.returnFromInterrupt (.retn y)).tick 14)

end Sys2Proof.Machine
end

