-- ==== Sys2Proof/Machine/Load16.lean ====
section
/-! DEFINITION. The meanings of 16-bit loads, PUSH and POP (41_load16_stack.md R180 to R193). The fetches are done when a meaning runs: PC is past the instruction
and R has counted (30_encoding.md R102). Each adds its whole T-state figure, which includes one governing prefix (R124). -/

namespace Sys2Proof.Machine

/-- LD dd,nn (R180). -/
def execLdDdNn (dd : RegPair) (nn : Word) (s : State) : Result := .next ((s.loadPair (.ldDdNn dd nn) dd nn).tick 10)

/-- LD IX,nn (R181). -/
def execLdIxNn (nn : Word) (s : State) : Result := .next { s with ix := nn, tacts := s.tacts + 14 }

/-- LD IY,nn (R181). -/
def execLdIyNn (nn : Word) (s : State) : Result := .next { s with iy := nn, tacts := s.tacts + 14 }

/-- LD HL,(nn) (R182). -/
def execLdHlMemNn (nn : Word) (s : State) : Result :=
  let m := s.memRead16 nn
  .next { m.2.setHl m.1 with wz := nn + 1, tacts := s.tacts + 16 }

/-- LD dd,(nn) (R183). -/
def execLdDdMemNn (dd : RegPair) (nn : Word) (s : State) : Result :=
  let m := s.memRead16 nn
  .next { m.2.loadPair (.ldDdMemNn dd nn) dd m.1 with wz := nn + 1, tacts := s.tacts + 20 }

/-- LD IX,(nn) (R184). -/
def execLdIxMemNn (nn : Word) (s : State) : Result :=
  let m := s.memRead16 nn
  .next { m.2 with ix := m.1, wz := nn + 1, tacts := s.tacts + 20 }

/-- LD IY,(nn) (R184). -/
def execLdIyMemNn (nn : Word) (s : State) : Result :=
  let m := s.memRead16 nn
  .next { m.2 with iy := m.1, wz := nn + 1, tacts := s.tacts + 20 }

/-- LD (nn),HL (R185). -/
def execLdMemNnHl (nn : Word) (s : State) : Result := .next { s.memWrite16 nn s.hl with wz := nn + 1, tacts := s.tacts + 16 }

/-- LD (nn),dd (R186). -/
def execLdMemNnDd (dd : RegPair) (nn : Word) (s : State) : Result :=
  .next { s.memWrite16 nn (s.pair dd) with wz := nn + 1, tacts := s.tacts + 20 }

/-- LD (nn),IX (R187). -/
def execLdMemNnIx (nn : Word) (s : State) : Result := .next { s.memWrite16 nn s.ix with wz := nn + 1, tacts := s.tacts + 20 }

/-- LD (nn),IY (R187). -/
def execLdMemNnIy (nn : Word) (s : State) : Result := .next { s.memWrite16 nn s.iy with wz := nn + 1, tacts := s.tacts + 20 }

/-- LD SP,HL (R188). -/
def execLdSpHl (s : State) : Result := .next ((s.loadPair .ldSpHl .sp s.hl).tick 6)

/-- LD SP,IX (R189). -/
def execLdSpIx (s : State) : Result := .next ((s.loadPair .ldSpIx .sp s.ix).tick 10)

/-- LD SP,IY (R189). -/
def execLdSpIy (s : State) : Result := .next ((s.loadPair .ldSpIy .sp s.iy).tick 10)

/-- PUSH qq (R190). -/
def execPushQq (qq : StackPair) (s : State) : Result := .next ((s.pushFor (.instr (.pushQq qq)) (s.stackPair qq)).tick 11)

/-- PUSH IX (R191). -/
def execPushIx (s : State) : Result := .next ((s.pushFor (.instr .pushIx) s.ix).tick 15)

/-- PUSH IY (R191). -/
def execPushIy (s : State) : Result := .next ((s.pushFor (.instr .pushIy) s.iy).tick 15)

/-- POP qq (R192). -/
def execPopQq (qq : StackPair) (s : State) : Result :=
  let m := s.popFor (.instr (.popQq qq))
  .next ((m.2.setStackPair qq m.1).tick 10)

/-- POP IX (R193). -/
def execPopIx (s : State) : Result :=
  let m := s.popFor (.instr .popIx)
  .next { m.2 with ix := m.1, tacts := s.tacts + 14 }

/-- POP IY (R193). -/
def execPopIy (s : State) : Result :=
  let m := s.popFor (.instr .popIy)
  .next { m.2 with iy := m.1, tacts := s.tacts + 14 }

end Sys2Proof.Machine
end

