-- ==== Sys2Proof/Machine/Load8.lean ====
section
/-! DEFINITION. The meanings of the 8-bit load group (40_load8.md R150 to R169). The fetches are done when a meaning runs: PC is past the instruction
and R has counted (30_encoding.md R102). Each adds its whole T-state figure, which includes one governing prefix (R124). -/

namespace Sys2Proof.Machine

/-- LD r,r' (R150). -/
def execLdRR (r : Reg8) (r' : Reg8) (s : State) : Result := .next ((s.setReg8 r (s.reg8 r')).tick 4)

/-- LD r,n (R151). -/
def execLdRN (r : Reg8) (n : Byte) (s : State) : Result := .next ((s.setReg8 r n).tick 7)

/-- LD r,(HL) (R152). -/
def execLdRMemHl (r : Reg8) (s : State) : Result :=
  let m := s.memRead s.hl
  .next ((m.2.setReg8 r m.1).tick 7)

/-- LD r,(IX+d) (R153). -/
def execLdRMemIx (r : Reg8) (d : Byte) (s : State) : Result :=
  let m := s.readIndexed .ix d
  .next ((m.2.setReg8 r m.1).tick 19)

/-- LD r,(IY+d) (R153). -/
def execLdRMemIy (r : Reg8) (d : Byte) (s : State) : Result :=
  let m := s.readIndexed .iy d
  .next ((m.2.setReg8 r m.1).tick 19)

/-- LD (HL),r (R154). -/
def execLdMemHlR (r : Reg8) (s : State) : Result := .next ((s.memWrite s.hl (s.reg8 r)).tick 7)

/-- LD (IX+d),r (R155). -/
def execLdMemIxR (d : Byte) (r : Reg8) (s : State) : Result := .next (((s.indexed .ix d).memWrite (s.indexAddr .ix d) (s.reg8 r)).tick 19)

/-- LD (IY+d),r (R155). -/
def execLdMemIyR (d : Byte) (r : Reg8) (s : State) : Result := .next (((s.indexed .iy d).memWrite (s.indexAddr .iy d) (s.reg8 r)).tick 19)

/-- LD (HL),n (R156). -/
def execLdMemHlN (n : Byte) (s : State) : Result := .next ((s.memWrite s.hl n).tick 10)

/-- LD (IX+d),n (R157). -/
def execLdMemIxN (d : Byte) (n : Byte) (s : State) : Result := .next (((s.indexed .ix d).memWrite (s.indexAddr .ix d) n).tick 19)

/-- LD (IY+d),n (R157). -/
def execLdMemIyN (d : Byte) (n : Byte) (s : State) : Result := .next (((s.indexed .iy d).memWrite (s.indexAddr .iy d) n).tick 19)

/-- LD A,(BC) (R158). -/
def execLdAMemBc (s : State) : Result :=
  let m := s.memRead s.bc
  .next { m.2 with a := m.1, wz := s.bc + 1, tacts := s.tacts + 7 }

/-- LD A,(DE) (R159). -/
def execLdAMemDe (s : State) : Result :=
  let m := s.memRead s.de
  .next { m.2 with a := m.1, wz := s.de + 1, tacts := s.tacts + 7 }

/-- LD A,(nn) (R160). -/
def execLdAMemNn (nn : Word) (s : State) : Result :=
  let m := s.memRead nn
  .next { m.2 with a := m.1, wz := nn + 1, tacts := s.tacts + 13 }

/-- LD (BC),A (R161). -/
def execLdMemBcA (s : State) : Result := .next { s.memWrite s.bc s.a with wz := word s.a (s.c + 1), tacts := s.tacts + 7 }

/-- LD (DE),A (R162). -/
def execLdMemDeA (s : State) : Result := .next { s.memWrite s.de s.a with wz := word s.a (s.e + 1), tacts := s.tacts + 7 }

/-- LD (nn),A (R163). -/
def execLdMemNnA (nn : Word) (s : State) : Result := .next { s.memWrite nn s.a with wz := word s.a (lo nn + 1), tacts := s.tacts + 13 }

/-- LD A,I (R164). -/
def execLdAI (s : State) : Result := .next { s with a := s.i, f := (interruptFlags s.i s.iff2 s.flags).toByte, tacts := s.tacts + 9 }

/-- LD A,R (R165). -/
def execLdAR (s : State) : Result := .next { s with a := s.r, f := (interruptFlags s.r s.iff2 s.flags).toByte, tacts := s.tacts + 9 }

/-- LD I,A (R166). -/
def execLdIA (s : State) : Result := .next { s with i := s.a, tacts := s.tacts + 9 }

/-- LD R,A (R167). -/
def execLdRA (s : State) : Result := .next { s with r := s.a, tacts := s.tacts + 9 }

/-- LD q,q' with at least one half of IX or IY (R168). -/
def execLdQQ (xy : IndexReg) (q : HalfReg) (q' : HalfReg) (s : State) : Result := .next ((s.setHalfReg xy q (s.halfReg xy q')).tick 8)

/-- LD p,n (R169). -/
def execLdPN (xy : IndexReg) (p : Half) (n : Byte) (s : State) : Result := .next ((s.setHalf xy p n).tick 11)

end Sys2Proof.Machine
end

