-- ==== Sys2Proof/Machine/Prefixes.lean ====
section
/-! DEFINITION. The meanings of the prefix rows (30_encoding.md R102, R111, R114). The fetches are done when a meaning runs: PC is past the instruction
and R has counted (30_encoding.md R102). Each adds its whole T-state figure, which includes one governing prefix (R124). -/

namespace Sys2Proof.Machine

/-- R111: the 4 T-states of a DD/FD prefix that a later prefix makes redundant; without one nothing is charged here, because the
total of the governed instruction includes its governing prefix (R102). -/
def State.tickRedundant (s : State) (before : Option IndexReg) : State :=
  match before with
  | none => s
  | some _ => s.tick 4

/-- the byte DD read as a prefix (R102); before is the DD/FD prefix it makes redundant, if there is one (R111 a). -/
def execPrefixDD (before : Option IndexReg) (s : State) : Result := .next (s.tickRedundant before)

/-- the byte ED read as a prefix: it selects the ED space (R102); before is the DD/FD prefix it makes redundant, if there is one (R111 c). -/
def execPrefixED (before : Option IndexReg) (s : State) : Result := .next (s.tickRedundant before)

/-- the byte FD read as a prefix (R102); before is the DD/FD prefix it makes redundant, if there is one (R111 a). -/
def execPrefixFD (before : Option IndexReg) (s : State) : Result := .next (s.tickRedundant before)

/-- the byte CB read as a prefix: with no DD/FD before it, it selects the CB space (R102); after DD or FD, the DDCB or FDCB space (R114). -/
def execPrefixCB (_before : Option IndexReg) (s : State) : Result := .next s

/-- a DD or FD prefix made redundant by a following opcode byte that it does not change (R111 b); it has no byte of its own, the base-space instruction follows. -/
def execBaseRedundant (_xy : IndexReg) (s : State) : Result := .next (s.tick 4)

end Sys2Proof.Machine
end

