-- ==== Sys2Proof/Machine/Rotate.lean ====
section
/-! DEFINITION. The meanings of rotates and shifts (46_rotate_shift.md R331 to R361). The fetches are done when a meaning runs: PC is past the instruction
and R has counted (30_encoding.md R102). Each adds its whole T-state figure, which includes one governing prefix (R124). -/

namespace Sys2Proof.Machine

/-- R335 to R357: a rotate of the byte at an address, written back; the address is HL or, in the DDCB/FDCB space, the indexed one. -/
def State.rotateAt (s : State) (k : RotKind) (a : Word) : State :=
  let m := s.memRead a
  (m.2.memWrite a (rot k m.1 s.flags.c).1).setFlags (rot k m.1 s.flags.c).2

/-- R330 on a register. -/
def State.rotateReg (s : State) (k : RotKind) (r : Reg8) : State :=
  (s.setReg8 r (rot k (s.reg8 r) s.flags.c).1).setFlags (rot k (s.reg8 r) s.flags.c).2

/-- R337: the byte that a rotate of the byte at an address writes, and that the undocumented form copies to a register. -/
def State.rotated (s : State) (k : RotKind) (a : Word) : Byte := (rot k (s.peek a) s.flags.c).1

/-- R331 to R334: a one-byte accumulator rotate. -/
def State.rotateA (s : State) (k : RotKind) : State :=
  ({ s with a := (rotA k s.a s.flags).1 }).setFlags (rotA k s.a s.flags).2

/-- RLCA (R331). -/
def execRlca (s : State) : Result := .next ((s.rotateA .rlc).tick 4)

/-- RRCA (R332). -/
def execRrca (s : State) : Result := .next ((s.rotateA .rrc).tick 4)

/-- RLA (R333). -/
def execRla (s : State) : Result := .next ((s.rotateA .rl).tick 4)

/-- RRA (R334). -/
def execRra (s : State) : Result := .next ((s.rotateA .rr).tick 4)

/-- RLC r (R335). -/
def execRlcR (r : Reg8) (s : State) : Result := .next ((s.rotateReg .rlc r).tick 8)

/-- RLC (HL) (R336). -/
def execRlcMemHl (s : State) : Result := .next ((s.rotateAt .rlc s.hl).tick 15)

/-- RLC (IX+d) (R337). -/
def execRlcMemIx (d : Byte) (s : State) : Result := .next (((s.indexed .ix d).rotateAt .rlc (s.indexAddr .ix d)).tick 23)

/-- RLC (IY+d) (R337). -/
def execRlcMemIy (d : Byte) (s : State) : Result := .next (((s.indexed .iy d).rotateAt .rlc (s.indexAddr .iy d)).tick 23)

/-- RLC (IX+d),r (R337). -/
def execRlcMemIxR (d : Byte) (r : Reg8) (s : State) : Result :=
  .next ((((s.indexed .ix d).rotateAt .rlc (s.indexAddr .ix d)).setReg8 r (s.rotated .rlc (s.indexAddr .ix d))).tick 23)

/-- RLC (IY+d),r (R337). -/
def execRlcMemIyR (d : Byte) (r : Reg8) (s : State) : Result :=
  .next ((((s.indexed .iy d).rotateAt .rlc (s.indexAddr .iy d)).setReg8 r (s.rotated .rlc (s.indexAddr .iy d))).tick 23)

/-- RRC r (R338). -/
def execRrcR (r : Reg8) (s : State) : Result := .next ((s.rotateReg .rrc r).tick 8)

/-- RRC (HL) (R339). -/
def execRrcMemHl (s : State) : Result := .next ((s.rotateAt .rrc s.hl).tick 15)

/-- RRC (IX+d) (R340). -/
def execRrcMemIx (d : Byte) (s : State) : Result := .next (((s.indexed .ix d).rotateAt .rrc (s.indexAddr .ix d)).tick 23)

/-- RRC (IY+d) (R340). -/
def execRrcMemIy (d : Byte) (s : State) : Result := .next (((s.indexed .iy d).rotateAt .rrc (s.indexAddr .iy d)).tick 23)

/-- RRC (IX+d),r (R340). -/
def execRrcMemIxR (d : Byte) (r : Reg8) (s : State) : Result :=
  .next ((((s.indexed .ix d).rotateAt .rrc (s.indexAddr .ix d)).setReg8 r (s.rotated .rrc (s.indexAddr .ix d))).tick 23)

/-- RRC (IY+d),r (R340). -/
def execRrcMemIyR (d : Byte) (r : Reg8) (s : State) : Result :=
  .next ((((s.indexed .iy d).rotateAt .rrc (s.indexAddr .iy d)).setReg8 r (s.rotated .rrc (s.indexAddr .iy d))).tick 23)

/-- RL r (R341). -/
def execRlR (r : Reg8) (s : State) : Result := .next ((s.rotateReg .rl r).tick 8)

/-- RL (HL) (R342). -/
def execRlMemHl (s : State) : Result := .next ((s.rotateAt .rl s.hl).tick 15)

/-- RL (IX+d) (R343). -/
def execRlMemIx (d : Byte) (s : State) : Result := .next (((s.indexed .ix d).rotateAt .rl (s.indexAddr .ix d)).tick 23)

/-- RL (IY+d) (R343). -/
def execRlMemIy (d : Byte) (s : State) : Result := .next (((s.indexed .iy d).rotateAt .rl (s.indexAddr .iy d)).tick 23)

/-- RL (IX+d),r (R343). -/
def execRlMemIxR (d : Byte) (r : Reg8) (s : State) : Result :=
  .next ((((s.indexed .ix d).rotateAt .rl (s.indexAddr .ix d)).setReg8 r (s.rotated .rl (s.indexAddr .ix d))).tick 23)

/-- RL (IY+d),r (R343). -/
def execRlMemIyR (d : Byte) (r : Reg8) (s : State) : Result :=
  .next ((((s.indexed .iy d).rotateAt .rl (s.indexAddr .iy d)).setReg8 r (s.rotated .rl (s.indexAddr .iy d))).tick 23)

/-- RR r (R344). -/
def execRrR (r : Reg8) (s : State) : Result := .next ((s.rotateReg .rr r).tick 8)

/-- RR (HL) (R345). -/
def execRrMemHl (s : State) : Result := .next ((s.rotateAt .rr s.hl).tick 15)

/-- RR (IX+d) (R346). -/
def execRrMemIx (d : Byte) (s : State) : Result := .next (((s.indexed .ix d).rotateAt .rr (s.indexAddr .ix d)).tick 23)

/-- RR (IY+d) (R346). -/
def execRrMemIy (d : Byte) (s : State) : Result := .next (((s.indexed .iy d).rotateAt .rr (s.indexAddr .iy d)).tick 23)

/-- RR (IX+d),r (R346). -/
def execRrMemIxR (d : Byte) (r : Reg8) (s : State) : Result :=
  .next ((((s.indexed .ix d).rotateAt .rr (s.indexAddr .ix d)).setReg8 r (s.rotated .rr (s.indexAddr .ix d))).tick 23)

/-- RR (IY+d),r (R346). -/
def execRrMemIyR (d : Byte) (r : Reg8) (s : State) : Result :=
  .next ((((s.indexed .iy d).rotateAt .rr (s.indexAddr .iy d)).setReg8 r (s.rotated .rr (s.indexAddr .iy d))).tick 23)

/-- SLA r (R347). -/
def execSlaR (r : Reg8) (s : State) : Result := .next ((s.rotateReg .sla r).tick 8)

/-- SLA (HL) (R348). -/
def execSlaMemHl (s : State) : Result := .next ((s.rotateAt .sla s.hl).tick 15)

/-- SLA (IX+d) (R349). -/
def execSlaMemIx (d : Byte) (s : State) : Result := .next (((s.indexed .ix d).rotateAt .sla (s.indexAddr .ix d)).tick 23)

/-- SLA (IY+d) (R349). -/
def execSlaMemIy (d : Byte) (s : State) : Result := .next (((s.indexed .iy d).rotateAt .sla (s.indexAddr .iy d)).tick 23)

/-- SLA (IX+d),r (R349). -/
def execSlaMemIxR (d : Byte) (r : Reg8) (s : State) : Result :=
  .next ((((s.indexed .ix d).rotateAt .sla (s.indexAddr .ix d)).setReg8 r (s.rotated .sla (s.indexAddr .ix d))).tick 23)

/-- SLA (IY+d),r (R349). -/
def execSlaMemIyR (d : Byte) (r : Reg8) (s : State) : Result :=
  .next ((((s.indexed .iy d).rotateAt .sla (s.indexAddr .iy d)).setReg8 r (s.rotated .sla (s.indexAddr .iy d))).tick 23)

/-- SRA r (R350). -/
def execSraR (r : Reg8) (s : State) : Result := .next ((s.rotateReg .sra r).tick 8)

/-- SRA (HL) (R351). -/
def execSraMemHl (s : State) : Result := .next ((s.rotateAt .sra s.hl).tick 15)

/-- SRA (IX+d) (R352). -/
def execSraMemIx (d : Byte) (s : State) : Result := .next (((s.indexed .ix d).rotateAt .sra (s.indexAddr .ix d)).tick 23)

/-- SRA (IY+d) (R352). -/
def execSraMemIy (d : Byte) (s : State) : Result := .next (((s.indexed .iy d).rotateAt .sra (s.indexAddr .iy d)).tick 23)

/-- SRA (IX+d),r (R352). -/
def execSraMemIxR (d : Byte) (r : Reg8) (s : State) : Result :=
  .next ((((s.indexed .ix d).rotateAt .sra (s.indexAddr .ix d)).setReg8 r (s.rotated .sra (s.indexAddr .ix d))).tick 23)

/-- SRA (IY+d),r (R352). -/
def execSraMemIyR (d : Byte) (r : Reg8) (s : State) : Result :=
  .next ((((s.indexed .iy d).rotateAt .sra (s.indexAddr .iy d)).setReg8 r (s.rotated .sra (s.indexAddr .iy d))).tick 23)

/-- SLL r (R353). -/
def execSllR (r : Reg8) (s : State) : Result := .next ((s.rotateReg .sll r).tick 8)

/-- SLL (HL) (R354). -/
def execSllMemHl (s : State) : Result := .next ((s.rotateAt .sll s.hl).tick 15)

/-- SLL (IX+d) (R355). -/
def execSllMemIx (d : Byte) (s : State) : Result := .next (((s.indexed .ix d).rotateAt .sll (s.indexAddr .ix d)).tick 23)

/-- SLL (IY+d) (R355). -/
def execSllMemIy (d : Byte) (s : State) : Result := .next (((s.indexed .iy d).rotateAt .sll (s.indexAddr .iy d)).tick 23)

/-- SLL (IX+d),r (R355). -/
def execSllMemIxR (d : Byte) (r : Reg8) (s : State) : Result :=
  .next ((((s.indexed .ix d).rotateAt .sll (s.indexAddr .ix d)).setReg8 r (s.rotated .sll (s.indexAddr .ix d))).tick 23)

/-- SLL (IY+d),r (R355). -/
def execSllMemIyR (d : Byte) (r : Reg8) (s : State) : Result :=
  .next ((((s.indexed .iy d).rotateAt .sll (s.indexAddr .iy d)).setReg8 r (s.rotated .sll (s.indexAddr .iy d))).tick 23)

/-- SRL r (R356). -/
def execSrlR (r : Reg8) (s : State) : Result := .next ((s.rotateReg .srl r).tick 8)

/-- SRL (HL) (R357). -/
def execSrlMemHl (s : State) : Result := .next ((s.rotateAt .srl s.hl).tick 15)

/-- SRL (IX+d) (R358). -/
def execSrlMemIx (d : Byte) (s : State) : Result := .next (((s.indexed .ix d).rotateAt .srl (s.indexAddr .ix d)).tick 23)

/-- SRL (IY+d) (R358). -/
def execSrlMemIy (d : Byte) (s : State) : Result := .next (((s.indexed .iy d).rotateAt .srl (s.indexAddr .iy d)).tick 23)

/-- SRL (IX+d),r (R358). -/
def execSrlMemIxR (d : Byte) (r : Reg8) (s : State) : Result :=
  .next ((((s.indexed .ix d).rotateAt .srl (s.indexAddr .ix d)).setReg8 r (s.rotated .srl (s.indexAddr .ix d))).tick 23)

/-- SRL (IY+d),r (R358). -/
def execSrlMemIyR (d : Byte) (r : Reg8) (s : State) : Result :=
  .next ((((s.indexed .iy d).rotateAt .srl (s.indexAddr .iy d)).setReg8 r (s.rotated .srl (s.indexAddr .iy d))).tick 23)

/-- RLD (R360). -/
def execRld (s : State) : Result :=
  let m := s.memRead s.hl
  let a' := (s.a &&& 0xF0) ||| (m.1 >>> 4)
  .next { (m.2.memWrite s.hl ((m.1 <<< 4) ||| (s.a &&& 0x0F))).setFlags (szpFlags a' s.flags) with
    a := a', wz := s.hl + 1, tacts := s.tacts + 18 }

/-- RRD (R361). -/
def execRrd (s : State) : Result :=
  let m := s.memRead s.hl
  let a' := (s.a &&& 0xF0) ||| (m.1 &&& 0x0F)
  .next { (m.2.memWrite s.hl (((s.a &&& 0x0F) <<< 4) ||| (m.1 >>> 4))).setFlags (szpFlags a' s.flags) with
    a := a', wz := s.hl + 1, tacts := s.tacts + 18 }

end Sys2Proof.Machine
end

