-- ==== Sys2Proof/Machine/Dispatch.lean ====
section
/-! DEFINITION. From each instruction to its meaning, one arm per constructor of `Instr`. -/

namespace Sys2Proof.Machine

/-- The meaning of an instruction, run on the state after its bytes were fetched. -/
def exec (i : Instr) (s : State) : Host.Outcome State Fault Refusal :=
  match i with
  | .exAfAf => Sys2Proof.Machine.execExAfAf s
  | .djnz e => Sys2Proof.Machine.execDjnz e s
  | .jr e => Sys2Proof.Machine.execJr e s
  | .jrCc cc e => Sys2Proof.Machine.execJrCc cc e s
  | .ldDdNn dd nn => Sys2Proof.Machine.execLdDdNn dd nn s
  | .addHlSs ss => Sys2Proof.Machine.execAddHlSs ss s
  | .ldMemBcA => Sys2Proof.Machine.execLdMemBcA s
  | .ldMemDeA => Sys2Proof.Machine.execLdMemDeA s
  | .ldMemNnHl nn => Sys2Proof.Machine.execLdMemNnHl nn s
  | .ldMemNnA nn => Sys2Proof.Machine.execLdMemNnA nn s
  | .ldAMemBc => Sys2Proof.Machine.execLdAMemBc s
  | .ldAMemDe => Sys2Proof.Machine.execLdAMemDe s
  | .ldHlMemNn nn => Sys2Proof.Machine.execLdHlMemNn nn s
  | .ldAMemNn nn => Sys2Proof.Machine.execLdAMemNn nn s
  | .incSs ss => Sys2Proof.Machine.execIncSs ss s
  | .decSs ss => Sys2Proof.Machine.execDecSs ss s
  | .incR r => Sys2Proof.Machine.execIncR r s
  | .incMemHl => Sys2Proof.Machine.execIncMemHl s
  | .decR r => Sys2Proof.Machine.execDecR r s
  | .decMemHl => Sys2Proof.Machine.execDecMemHl s
  | .ldRN r n => Sys2Proof.Machine.execLdRN r n s
  | .ldMemHlN n => Sys2Proof.Machine.execLdMemHlN n s
  | .rlca => Sys2Proof.Machine.execRlca s
  | .rrca => Sys2Proof.Machine.execRrca s
  | .rla => Sys2Proof.Machine.execRla s
  | .rra => Sys2Proof.Machine.execRra s
  | .daa => Sys2Proof.Machine.execDaa s
  | .cpl => Sys2Proof.Machine.execCpl s
  | .scf => Sys2Proof.Machine.execScf s
  | .ccf => Sys2Proof.Machine.execCcf s
  | .ldRR r r' => Sys2Proof.Machine.execLdRR r r' s
  | .ldRMemHl r => Sys2Proof.Machine.execLdRMemHl r s
  | .ldMemHlR r => Sys2Proof.Machine.execLdMemHlR r s
  | .halt => Sys2Proof.Machine.execHalt s
  | .addAR r => Sys2Proof.Machine.execAddAR r s
  | .addAMemHl => Sys2Proof.Machine.execAddAMemHl s
  | .addAN n => Sys2Proof.Machine.execAddAN n s
  | .adcAR r => Sys2Proof.Machine.execAdcAR r s
  | .adcAMemHl => Sys2Proof.Machine.execAdcAMemHl s
  | .adcAN n => Sys2Proof.Machine.execAdcAN n s
  | .subR r => Sys2Proof.Machine.execSubR r s
  | .subMemHl => Sys2Proof.Machine.execSubMemHl s
  | .subN n => Sys2Proof.Machine.execSubN n s
  | .sbcAR r => Sys2Proof.Machine.execSbcAR r s
  | .sbcAMemHl => Sys2Proof.Machine.execSbcAMemHl s
  | .sbcAN n => Sys2Proof.Machine.execSbcAN n s
  | .andR r => Sys2Proof.Machine.execAndR r s
  | .andMemHl => Sys2Proof.Machine.execAndMemHl s
  | .andN n => Sys2Proof.Machine.execAndN n s
  | .xorR r => Sys2Proof.Machine.execXorR r s
  | .xorMemHl => Sys2Proof.Machine.execXorMemHl s
  | .xorN n => Sys2Proof.Machine.execXorN n s
  | .orR r => Sys2Proof.Machine.execOrR r s
  | .orMemHl => Sys2Proof.Machine.execOrMemHl s
  | .orN n => Sys2Proof.Machine.execOrN n s
  | .cpR r => Sys2Proof.Machine.execCpR r s
  | .cpMemHl => Sys2Proof.Machine.execCpMemHl s
  | .cpN n => Sys2Proof.Machine.execCpN n s
  | .retCc cc => Sys2Proof.Machine.execRetCc cc s
  | .popQq qq => Sys2Proof.Machine.execPopQq qq s
  | .ret => Sys2Proof.Machine.execRet s
  | .exx => Sys2Proof.Machine.execExx s
  | .jpHl => Sys2Proof.Machine.execJpHl s
  | .ldSpHl => Sys2Proof.Machine.execLdSpHl s
  | .jpCcNn cc nn => Sys2Proof.Machine.execJpCcNn cc nn s
  | .jpNn nn => Sys2Proof.Machine.execJpNn nn s
  | .outNA n => Sys2Proof.Machine.execOutNA n s
  | .inAN n => Sys2Proof.Machine.execInAN n s
  | .exMemSpHl => Sys2Proof.Machine.execExMemSpHl s
  | .exDeHl => Sys2Proof.Machine.execExDeHl s
  | .di => Sys2Proof.Machine.execDi s
  | .ei => Sys2Proof.Machine.execEi s
  | .callCcNn cc nn => Sys2Proof.Machine.execCallCcNn cc nn s
  | .pushQq qq => Sys2Proof.Machine.execPushQq qq s
  | .callNn nn => Sys2Proof.Machine.execCallNn nn s
  | .rst t => Sys2Proof.Machine.execRst t s
  | .prefixCB before => Sys2Proof.Machine.execPrefixCB before s
  | .prefixDD before => Sys2Proof.Machine.execPrefixDD before s
  | .prefixED before => Sys2Proof.Machine.execPrefixED before s
  | .prefixFD before => Sys2Proof.Machine.execPrefixFD before s
  | .rlcR r => Sys2Proof.Machine.execRlcR r s
  | .rlcMemHl => Sys2Proof.Machine.execRlcMemHl s
  | .rrcR r => Sys2Proof.Machine.execRrcR r s
  | .rrcMemHl => Sys2Proof.Machine.execRrcMemHl s
  | .rlR r => Sys2Proof.Machine.execRlR r s
  | .rlMemHl => Sys2Proof.Machine.execRlMemHl s
  | .rrR r => Sys2Proof.Machine.execRrR r s
  | .rrMemHl => Sys2Proof.Machine.execRrMemHl s
  | .slaR r => Sys2Proof.Machine.execSlaR r s
  | .slaMemHl => Sys2Proof.Machine.execSlaMemHl s
  | .sraR r => Sys2Proof.Machine.execSraR r s
  | .sraMemHl => Sys2Proof.Machine.execSraMemHl s
  | .sllR r => Sys2Proof.Machine.execSllR r s
  | .sllMemHl => Sys2Proof.Machine.execSllMemHl s
  | .srlR r => Sys2Proof.Machine.execSrlR r s
  | .srlMemHl => Sys2Proof.Machine.execSrlMemHl s
  | .bitBR b r => Sys2Proof.Machine.execBitBR b r s
  | .bitBMemHl b => Sys2Proof.Machine.execBitBMemHl b s
  | .resBR b r => Sys2Proof.Machine.execResBR b r s
  | .resBMemHl b => Sys2Proof.Machine.execResBMemHl b s
  | .setBR b r => Sys2Proof.Machine.execSetBR b r s
  | .setBMemHl b => Sys2Proof.Machine.execSetBMemHl b s
  | .inRC r => Sys2Proof.Machine.execInRC r s
  | .inC => Sys2Proof.Machine.execInC s
  | .outCR r => Sys2Proof.Machine.execOutCR r s
  | .outC0 => Sys2Proof.Machine.execOutC0 s
  | .sbcHlSs ss => Sys2Proof.Machine.execSbcHlSs ss s
  | .adcHlSs ss => Sys2Proof.Machine.execAdcHlSs ss s
  | .ldMemNnDd dd nn => Sys2Proof.Machine.execLdMemNnDd dd nn s
  | .ldDdMemNn dd nn => Sys2Proof.Machine.execLdDdMemNn dd nn s
  | .neg y => Sys2Proof.Machine.execNeg y s
  | .retn y => Sys2Proof.Machine.execRetn y s
  | .reti => Sys2Proof.Machine.execReti s
  | .im0 x5 x3 => Sys2Proof.Machine.execIm0 x5 x3 s
  | .im1 x5 => Sys2Proof.Machine.execIm1 x5 s
  | .im2 x5 => Sys2Proof.Machine.execIm2 x5 s
  | .ldIA => Sys2Proof.Machine.execLdIA s
  | .ldRA => Sys2Proof.Machine.execLdRA s
  | .ldAI => Sys2Proof.Machine.execLdAI s
  | .ldAR => Sys2Proof.Machine.execLdAR s
  | .rrd => Sys2Proof.Machine.execRrd s
  | .rld => Sys2Proof.Machine.execRld s
  | .ldi => Sys2Proof.Machine.execLdi s
  | .cpi => Sys2Proof.Machine.execCpi s
  | .ini => Sys2Proof.Machine.execIni s
  | .outi => Sys2Proof.Machine.execOuti s
  | .ldd => Sys2Proof.Machine.execLdd s
  | .cpd => Sys2Proof.Machine.execCpd s
  | .ind => Sys2Proof.Machine.execInd s
  | .outd => Sys2Proof.Machine.execOutd s
  | .ldir => Sys2Proof.Machine.execLdir s
  | .cpir => Sys2Proof.Machine.execCpir s
  | .inir => Sys2Proof.Machine.execInir s
  | .otir => Sys2Proof.Machine.execOtir s
  | .lddr => Sys2Proof.Machine.execLddr s
  | .cpdr => Sys2Proof.Machine.execCpdr s
  | .indr => Sys2Proof.Machine.execIndr s
  | .otdr => Sys2Proof.Machine.execOtdr s
  | .nopEd op => Sys2Proof.Machine.execNopEd op s
  | .addIxPp pp => Sys2Proof.Machine.execAddIxPp pp s
  | .addIyPp pp => Sys2Proof.Machine.execAddIyPp pp s
  | .ldIxNn nn => Sys2Proof.Machine.execLdIxNn nn s
  | .ldIyNn nn => Sys2Proof.Machine.execLdIyNn nn s
  | .ldMemNnIx nn => Sys2Proof.Machine.execLdMemNnIx nn s
  | .ldMemNnIy nn => Sys2Proof.Machine.execLdMemNnIy nn s
  | .incIx => Sys2Proof.Machine.execIncIx s
  | .incIy => Sys2Proof.Machine.execIncIy s
  | .incP xy p => Sys2Proof.Machine.execIncP xy p s
  | .decP xy p => Sys2Proof.Machine.execDecP xy p s
  | .ldPN xy p n => Sys2Proof.Machine.execLdPN xy p n s
  | .ldIxMemNn nn => Sys2Proof.Machine.execLdIxMemNn nn s
  | .ldIyMemNn nn => Sys2Proof.Machine.execLdIyMemNn nn s
  | .decIx => Sys2Proof.Machine.execDecIx s
  | .decIy => Sys2Proof.Machine.execDecIy s
  | .incMemIx d => Sys2Proof.Machine.execIncMemIx d s
  | .incMemIy d => Sys2Proof.Machine.execIncMemIy d s
  | .decMemIx d => Sys2Proof.Machine.execDecMemIx d s
  | .decMemIy d => Sys2Proof.Machine.execDecMemIy d s
  | .ldMemIxN d n => Sys2Proof.Machine.execLdMemIxN d n s
  | .ldMemIyN d n => Sys2Proof.Machine.execLdMemIyN d n s
  | .ldQQ xy q q' => Sys2Proof.Machine.execLdQQ xy q q' s
  | .ldRMemIx r d => Sys2Proof.Machine.execLdRMemIx r d s
  | .ldRMemIy r d => Sys2Proof.Machine.execLdRMemIy r d s
  | .ldMemIxR d r => Sys2Proof.Machine.execLdMemIxR d r s
  | .ldMemIyR d r => Sys2Proof.Machine.execLdMemIyR d r s
  | .addAP xy p => Sys2Proof.Machine.execAddAP xy p s
  | .addAMemIx d => Sys2Proof.Machine.execAddAMemIx d s
  | .addAMemIy d => Sys2Proof.Machine.execAddAMemIy d s
  | .adcAP xy p => Sys2Proof.Machine.execAdcAP xy p s
  | .adcAMemIx d => Sys2Proof.Machine.execAdcAMemIx d s
  | .adcAMemIy d => Sys2Proof.Machine.execAdcAMemIy d s
  | .subP xy p => Sys2Proof.Machine.execSubP xy p s
  | .subMemIx d => Sys2Proof.Machine.execSubMemIx d s
  | .subMemIy d => Sys2Proof.Machine.execSubMemIy d s
  | .sbcAP xy p => Sys2Proof.Machine.execSbcAP xy p s
  | .sbcAMemIx d => Sys2Proof.Machine.execSbcAMemIx d s
  | .sbcAMemIy d => Sys2Proof.Machine.execSbcAMemIy d s
  | .andP xy p => Sys2Proof.Machine.execAndP xy p s
  | .andMemIx d => Sys2Proof.Machine.execAndMemIx d s
  | .andMemIy d => Sys2Proof.Machine.execAndMemIy d s
  | .xorP xy p => Sys2Proof.Machine.execXorP xy p s
  | .xorMemIx d => Sys2Proof.Machine.execXorMemIx d s
  | .xorMemIy d => Sys2Proof.Machine.execXorMemIy d s
  | .orP xy p => Sys2Proof.Machine.execOrP xy p s
  | .orMemIx d => Sys2Proof.Machine.execOrMemIx d s
  | .orMemIy d => Sys2Proof.Machine.execOrMemIy d s
  | .cpP xy p => Sys2Proof.Machine.execCpP xy p s
  | .cpMemIx d => Sys2Proof.Machine.execCpMemIx d s
  | .cpMemIy d => Sys2Proof.Machine.execCpMemIy d s
  | .popIx => Sys2Proof.Machine.execPopIx s
  | .popIy => Sys2Proof.Machine.execPopIy s
  | .exMemSpIx => Sys2Proof.Machine.execExMemSpIx s
  | .exMemSpIy => Sys2Proof.Machine.execExMemSpIy s
  | .pushIx => Sys2Proof.Machine.execPushIx s
  | .pushIy => Sys2Proof.Machine.execPushIy s
  | .jpIx => Sys2Proof.Machine.execJpIx s
  | .jpIy => Sys2Proof.Machine.execJpIy s
  | .ldSpIx => Sys2Proof.Machine.execLdSpIx s
  | .ldSpIy => Sys2Proof.Machine.execLdSpIy s
  | .baseRedundant xy => Sys2Proof.Machine.execBaseRedundant xy s
  | .rlcMemIx d => Sys2Proof.Machine.execRlcMemIx d s
  | .rlcMemIy d => Sys2Proof.Machine.execRlcMemIy d s
  | .rlcMemIxR d r => Sys2Proof.Machine.execRlcMemIxR d r s
  | .rlcMemIyR d r => Sys2Proof.Machine.execRlcMemIyR d r s
  | .rrcMemIx d => Sys2Proof.Machine.execRrcMemIx d s
  | .rrcMemIy d => Sys2Proof.Machine.execRrcMemIy d s
  | .rrcMemIxR d r => Sys2Proof.Machine.execRrcMemIxR d r s
  | .rrcMemIyR d r => Sys2Proof.Machine.execRrcMemIyR d r s
  | .rlMemIx d => Sys2Proof.Machine.execRlMemIx d s
  | .rlMemIy d => Sys2Proof.Machine.execRlMemIy d s
  | .rlMemIxR d r => Sys2Proof.Machine.execRlMemIxR d r s
  | .rlMemIyR d r => Sys2Proof.Machine.execRlMemIyR d r s
  | .rrMemIx d => Sys2Proof.Machine.execRrMemIx d s
  | .rrMemIy d => Sys2Proof.Machine.execRrMemIy d s
  | .rrMemIxR d r => Sys2Proof.Machine.execRrMemIxR d r s
  | .rrMemIyR d r => Sys2Proof.Machine.execRrMemIyR d r s
  | .slaMemIx d => Sys2Proof.Machine.execSlaMemIx d s
  | .slaMemIy d => Sys2Proof.Machine.execSlaMemIy d s
  | .slaMemIxR d r => Sys2Proof.Machine.execSlaMemIxR d r s
  | .slaMemIyR d r => Sys2Proof.Machine.execSlaMemIyR d r s
  | .sraMemIx d => Sys2Proof.Machine.execSraMemIx d s
  | .sraMemIy d => Sys2Proof.Machine.execSraMemIy d s
  | .sraMemIxR d r => Sys2Proof.Machine.execSraMemIxR d r s
  | .sraMemIyR d r => Sys2Proof.Machine.execSraMemIyR d r s
  | .sllMemIx d => Sys2Proof.Machine.execSllMemIx d s
  | .sllMemIy d => Sys2Proof.Machine.execSllMemIy d s
  | .sllMemIxR d r => Sys2Proof.Machine.execSllMemIxR d r s
  | .sllMemIyR d r => Sys2Proof.Machine.execSllMemIyR d r s
  | .srlMemIx d => Sys2Proof.Machine.execSrlMemIx d s
  | .srlMemIy d => Sys2Proof.Machine.execSrlMemIy d s
  | .srlMemIxR d r => Sys2Proof.Machine.execSrlMemIxR d r s
  | .srlMemIyR d r => Sys2Proof.Machine.execSrlMemIyR d r s
  | .bitBMemIx b d => Sys2Proof.Machine.execBitBMemIx b d s
  | .bitBMemIy b d => Sys2Proof.Machine.execBitBMemIy b d s
  | .bitBMemIxZ b d z => Sys2Proof.Machine.execBitBMemIxZ b d z s
  | .bitBMemIyZ b d z => Sys2Proof.Machine.execBitBMemIyZ b d z s
  | .resBMemIx b d => Sys2Proof.Machine.execResBMemIx b d s
  | .resBMemIy b d => Sys2Proof.Machine.execResBMemIy b d s
  | .resBMemIxR b d r => Sys2Proof.Machine.execResBMemIxR b d r s
  | .resBMemIyR b d r => Sys2Proof.Machine.execResBMemIyR b d r s
  | .setBMemIx b d => Sys2Proof.Machine.execSetBMemIx b d s
  | .setBMemIy b d => Sys2Proof.Machine.execSetBMemIy b d s
  | .setBMemIxR b d r => Sys2Proof.Machine.execSetBMemIxR b d r s
  | .setBMemIyR b d r => Sys2Proof.Machine.execSetBMemIyR b d r s
  | .nop => Sys2Proof.Machine.execNop s

end Sys2Proof.Machine
end

