-- ==== Sys2Proof/Machine/Execute.lean ====
section
/-! DEFINITION. One call of `ExecuteOne()` (60_exceptions.md R470): an acceptance, a halted cycle, or one decoded instruction; and the placing of
a word of the opcode table where the next instruction is fetched. -/

namespace Sys2Proof.Machine

/-- R102: the prefix rows a step passes and then the instruction they lead to, each by its own meaning, in order. -/
def runUnits : List Instr → State → Result
  | [], s => .next s
  | u :: us, s =>
    match exec u s with
    | .next t => runUnits us t
    | .fault r => .fault r
    | .refused r => .refused r

/-- 30_encoding.md R119, R120: how many DD/FD prefixes reads one after another from an address on return, up to a bound, before another byte. -/
def State.prefixRun (s : State) : Nat → Word → Nat
  | 0, _ => 0
  | n + 1, a => if s.peek a == 0xDD || s.peek a == 0xFD then (s.memRead a).2.prefixRun n (a + 1) + 1 else 0

/-- The bytes in which the instruction at PC lies: its DD/FD prefixes and four more (R119). -/
def State.window (s : State) : List Byte := s.bytesAt (s.prefixRun Config.prefixFuel s.pc + 4) s.pc

/-- R470: the state in which the instruction's fetches start: the EI delay is over, and the records' address and time are taken. -/
def State.beginInstruction (s : State) : State := ({ s with eiDelay := false }).latch

/-- R120, D27: none of the first `Config.prefixFuel` fetches is an opcode other than DD and FD. -/
def State.prefixesOnly (s : State) : Bool := s.prefixRun Config.prefixFuel s.pc == Config.prefixFuel

/-- R470, last case: decode and execute one instruction. All its bytes are fetched before its operation (20_memory.md R75; log 16). A chain
of prefixes without an end has no end state (R120; log 8); in every other case the window decodes. -/
def State.executeInstruction (s : State) : Result :=
  if s.prefixesOnly then .fault .prefixHang
  else match decode s.window with
  | .ok d => runUnits (d.prefixes ++ [d.instr]) (s.beginInstruction.fetch d.m1 (d.len - d.m1))
  | .error _ => .fault .prefixHang

/-- R472: the maskable acceptance test. -/
def State.intDue (s : State) : Bool := s.intPending && s.iff1 && !s.eiDelay

/-- R470: `ExecuteOne()`, NMI before INT before the halted cycle before the program (R471). -/
def State.executeOne (s : State) : Result :=
  if s.nmiPending then .next s.acceptNmi
  else if s.intDue then s.acceptInt
  else if s.halted then .next s.haltedCycle
  else s.executeInstruction

/-- Bytes put into memory from an address on, by the host between steps (20_memory.md R81), whatever kind of memory is there. -/
def State.place (s : State) : Word → List Byte → State
  | _, [] => s
  | a, v :: vs => ({ s with mem := s.mem.write a v }).place (a + 1) vs

/-- The memory kinds with the `n` addresses from one on made RAM, where one of them was a device; else as they are. -/
def MemMap.readable (kinds : MemMap) (a : Word) (n : Nat) : MemMap :=
  if (List.range n).any fun k => kinds.kindAt (a + BitVec.ofNat 16 k) == .device then { base := a, size := n, kind := .ram } :: kinds else kinds

/-- The bytes of a table word and zeros after it, placed at PC, with nothing pending before that instruction (logs 13, 14). -/
def State.placeTableWord (s : State) (nbits w : Nat) : State :=
  let bytes := tableBytes nbits w ++ List.replicate 4 0
  { s.place s.pc bytes with
    memMap := s.memMap.readable s.pc bytes.length, halted := false, nmiPending := false, intPending := false }

end Sys2Proof.Machine
end

