-- ==== Sys2Proof/Machine/Step.lean ====
section
/-! DEFINITION. The step of the machine, and the placing of a table word where the step fetches. -/

namespace Sys2Proof.Machine

/-- 60_exceptions.md R470: a step is one call of `ExecuteOne()`. -/
def step (s : State) : Host.Outcome State Fault Refusal := s.executeOne

/-- The state whose very next step fetches and runs the instruction of a table word (logs 13, 14). -/
def State.withFetchWord (s : State) (nbits w : Nat) : State := s.placeTableWord nbits w

end Sys2Proof.Machine
end

