-- ==== Sys2Proof/Machine/HostCalls.lean ====
section
/-! DEFINITION. What the host may do to the machine between two steps (60_exceptions.md R465 to R468, R506; 70_reset_and_hazards.md R520;
10_state.md R23, R41; 20_memory.md R81). `step` does none of it (log 10). -/

namespace Sys2Proof.Machine

/-- R520: `Reset()`. What it does not list keeps its value, memory, `intBus` and the observers among it. -/
def State.hostReset (s : State) : State :=
  { s with
    pc := Config.resetEntry, i := 0, r := 0, iff1 := false, iff2 := false, im := .im0, halted := false,
    eiDelay := false, intPending := false, nmiPending := false, tacts := 0 }

/-- R466: `RequestInterrupt()` with the byte the device supplies (D7). -/
def State.requestInterrupt (s : State) (busByte : Byte) : State := { s with intPending := true, intBus := busByte }

/-- R466: `WithdrawInterrupt()`. -/
def State.withdrawInterrupt (s : State) : State := { s with intPending := false }

/-- R467: `RequestNmi()`. -/
def State.requestNmi (s : State) : State := { s with nmiPending := true }

/-- 10_state.md R23: `ExchangeShadow()`. -/
def State.exchangeShadow (s : State) : State :=
  { s with
    a := s.a', f := s.f', b := s.b', c := s.c', d := s.d', e := s.e', h := s.h', l := s.l',
    a' := s.a, f' := s.f, b' := s.b, c' := s.c, d' := s.d, e' := s.e, h' := s.h, l' := s.l }

/-- R506: `SetBranchObserver`, with or without an observer. -/
def State.setBranchObserver (s : State) (present : Bool) : State := { s with branchObserver := present }

/-- R506: `SetStackObserver`, with or without an observer. -/
def State.setStackObserver (s : State) (present : Bool) : State := { s with stackObserver := present }

/-- 20_memory.md R81 d: the host changes a byte of memory between steps, RAM or ROM. -/
def State.hostWrite (s : State) (a : Word) (v : Byte) : State := { s with mem := s.mem.write a v }

/-- 20_memory.md R79: the host has another kind of memory behind some addresses from now on, as a bank switch does (log 18). -/
def State.setMemMap (s : State) (kinds : MemMap) : State := { s with memMap := kinds }

/-- 20_memory.md R79, D11: the host fixes its answer to a later `ReadPort` call, after the answers already fixed (log 4). -/
def State.supplyPort (s : State) (v : Byte) : State := { s with portInputs := s.portInputs ++ [v] }

/-- 10_state.md R41: the read-only snapshot: the register file of R20 and the tact counter. WZ, the EI delay and the pending bits are not in it (D17). -/
structure Snapshot where
  af   : Word
  bc   : Word
  de   : Word
  hl   : Word
  af'  : Word
  bc'  : Word
  de'  : Word
  hl'  : Word
  ix   : Word
  iy   : Word
  sp   : Word
  pc   : Word
  i    : Byte
  r    : Byte
  iff1 : Bool
  iff2 : Bool
  im   : IntMode
  halted : Bool
  tacts  : Nat
  deriving DecidableEq, Repr

/-- R41: the snapshot of a state. -/
def State.snapshot (s : State) : Snapshot :=
  { af := s.af, bc := s.bc, de := s.de, hl := s.hl,
    af' := word s.a' s.f', bc' := word s.b' s.c', de' := word s.d' s.e', hl' := word s.h' s.l',
    ix := s.ix, iy := s.iy, sp := s.sp, pc := s.pc, i := s.i, r := s.r,
    iff1 := s.iff1, iff2 := s.iff2, im := s.im, halted := s.halted, tacts := s.tacts }

/-- R35: what `ExecuteOne()` returns, the tact difference as 32 bits. -/
def tactsConsumed (before after : State) : BitVec 32 := BitVec.ofNat 32 (after.tacts - before.tacts)

/-- The calls a host can make between steps, as data. -/
inductive HostCall
  | reset | requestInterrupt (busByte : Byte) | withdrawInterrupt | requestNmi | exchangeShadow
  | setBranchObserver (present : Bool) | setStackObserver (present : Bool)
  | write (a : Word) (v : Byte) | setMemMap (kinds : MemMap) | supplyPort (v : Byte)
  deriving DecidableEq, Repr

/-- The state after a host call. -/
def State.afterCall (s : State) : HostCall → State
  | .reset => s.hostReset
  | .requestInterrupt b => s.requestInterrupt b
  | .withdrawInterrupt => s.withdrawInterrupt
  | .requestNmi => s.requestNmi
  | .exchangeShadow => s.exchangeShadow
  | .setBranchObserver p => s.setBranchObserver p
  | .setStackObserver p => s.setStackObserver p
  | .write a v => s.hostWrite a v
  | .setMemMap kinds => s.setMemMap kinds
  | .supplyPort v => s.supplyPort v

end Sys2Proof.Machine
end

