-- ==== Sys2Proof/Safety.lean ====
section
/-! DEFINITION. The terms in which claims speak of the machine: what an instruction stores to, which flags and records the spec's summary tables
give it, the length of an instruction, the invariant, when a step stops, and a run with host calls between its steps. -/

namespace Sys2Proof

/-! ## The spec's summaries of the instruction set, written from its tables and not from the meanings -/

/-- 10_state.md R44: the instructions that write the flag byte; "every other instruction" keeps all eight bits. -/
def Instr.writesF : Instr → Bool
  | .exAfAf | .addHlSs _ | .incR _ | .incMemHl | .decR _ | .decMemHl | .rlca | .rrca | .rla | .rra | .daa | .cpl | .scf | .ccf | .addAR _
  | .addAMemHl | .addAN _ | .adcAR _ | .adcAMemHl | .adcAN _ | .subR _ | .subMemHl | .subN _ | .sbcAR _ | .sbcAMemHl | .sbcAN _ | .andR _
  | .andMemHl | .andN _ | .xorR _ | .xorMemHl | .xorN _ | .orR _ | .orMemHl | .orN _ | .cpR _ | .cpMemHl | .cpN _ | .rlcR _ | .rlcMemHl
  | .rrcR _ | .rrcMemHl | .rlR _ | .rlMemHl | .rrR _ | .rrMemHl | .slaR _ | .slaMemHl | .sraR _ | .sraMemHl | .sllR _ | .sllMemHl | .srlR _
  | .srlMemHl | .bitBR _ _ | .bitBMemHl _ | .inRC _ | .inC | .sbcHlSs _ | .adcHlSs _ | .neg _ | .ldAI | .ldAR | .rrd | .rld | .ldi | .cpi
  | .ini | .outi | .ldd | .cpd | .ind | .outd | .ldir | .cpir | .inir | .otir | .lddr | .cpdr | .indr | .otdr | .addIxPp _ | .addIyPp _
  | .incP _ _ | .decP _ _ | .incMemIx _ | .incMemIy _ | .decMemIx _ | .decMemIy _ | .addAP _ _ | .addAMemIx _ | .addAMemIy _ | .adcAP _ _
  | .adcAMemIx _ | .adcAMemIy _ | .subP _ _ | .subMemIx _ | .subMemIy _ | .sbcAP _ _ | .sbcAMemIx _ | .sbcAMemIy _ | .andP _ _
  | .andMemIx _ | .andMemIy _ | .xorP _ _ | .xorMemIx _ | .xorMemIy _ | .orP _ _ | .orMemIx _ | .orMemIy _ | .cpP _ _ | .cpMemIx _
  | .cpMemIy _ | .rlcMemIx _ | .rlcMemIy _ | .rlcMemIxR _ _ | .rlcMemIyR _ _ | .rrcMemIx _ | .rrcMemIy _ | .rrcMemIxR _ _ | .rrcMemIyR _ _
  | .rlMemIx _ | .rlMemIy _ | .rlMemIxR _ _ | .rlMemIyR _ _ | .rrMemIx _ | .rrMemIy _ | .rrMemIxR _ _ | .rrMemIyR _ _ | .slaMemIx _
  | .slaMemIy _ | .slaMemIxR _ _ | .slaMemIyR _ _ | .sraMemIx _ | .sraMemIy _ | .sraMemIxR _ _ | .sraMemIyR _ _ | .sllMemIx _ | .sllMemIy _
  | .sllMemIxR _ _ | .sllMemIyR _ _ | .srlMemIx _ | .srlMemIy _ | .srlMemIxR _ _ | .srlMemIyR _ _ | .bitBMemIx _ _ | .bitBMemIy _ _
  | .bitBMemIxZ _ _ _ | .bitBMemIyZ _ _ _ => true
  | .popQq .af => true
  | _ => false

/-- 60_exceptions.md R507: the instructions that report to the branch observer, once per execution. -/
def Instr.isBranch : Instr → Bool
  | .djnz _ | .jr _ | .jrCc _ _ | .retCc _ | .ret | .jpHl | .jpCcNn _ _ | .jpNn _ | .callCcNn _ _ | .callNn _ | .rst _ | .retn _ | .reti
  | .jpIx | .jpIy => true
  | _ => false

/-- 10_state.md R43 b: the instructions that reach the ports (49_io.md). -/
def Instr.usesPort : Instr → Bool
  | .outNA _ | .inAN _ | .inRC _ | .inC | .outCR _ | .outC0 | .ini | .outi | .ind | .outd | .inir | .otir | .indr | .otdr => true
  | _ => false

/-- 10_state.md R25: the instructions that write SP. -/
def Instr.movesSp : Instr → Bool
  | .ldDdNn .sp _ | .ldDdMemNn .sp _ | .ldSpHl | .ldSpIx | .ldSpIy | .incSs .sp | .decSs .sp | .pushQq _ | .pushIx | .pushIy | .popQq _
  | .popIx | .popIy | .callNn _ | .callCcNn _ _ | .rst _ | .ret | .retCc _ | .retn _ | .reti => true
  | _ => false

/-- 10_state.md R24, 30_encoding.md R110: the instructions of the DD, FD, DDCB and FDCB spaces, with the index register they name. -/
def Instr.indexOf (i : Instr) : Option IndexReg :=
  match i.pattern.1 with
  | .xy xy => some xy
  | .xycb xy => some xy
  | _ => none

/-- 30_encoding.md R119: the number of leading DD/FD bytes. -/
def leadingPrefixes : List Byte → Nat
  | [] => 0
  | b :: bs => if b = 0xDD ∨ b = 0xFD then leadingPrefixes bs + 1 else 0

/-- R119: the base length of an opcode byte. -/
def baseLength (b : Byte) : Nat :=
  if b &&& 0xCF = 0x01 ∨ b = 0x22 ∨ b = 0x2A ∨ b = 0x32 ∨ b = 0x3A ∨ b = 0xC3 ∨ b = 0xCD ∨ b &&& 0xC7 = 0xC2 ∨ b &&& 0xC7 = 0xC4 then 3
  else if b &&& 0xC7 = 0x06 ∨ b &&& 0xC7 = 0xC6 ∨ b = 0x10 ∨ b = 0x18 ∨ b = 0x20 ∨ b = 0x28 ∨ b = 0x30 ∨ b = 0x38 ∨ b = 0xD3 ∨ b = 0xDB then 2
  else 1

/-- R119: the opcodes with an `(HL)` operand, which gain a displacement under a DD/FD prefix. -/
def gainsDisplacement (b : Byte) : Bool :=
  [0x34, 0x35, 0x36, 0x46, 0x4E, 0x56, 0x5E, 0x66, 0x6E, 0x70, 0x71, 0x72, 0x73, 0x74, 0x75, 0x77, 0x7E,
    0x86, 0x8E, 0x96, 0x9E, 0xA6, 0xAE, 0xB6, 0xBE].contains b

/-- R119: the length of the instruction at the front of the bytes, prefixes included. -/
def instructionLength (bytes : List Byte) : Nat :=
  let k := leadingPrefixes bytes
  let b := bytes.getD k 0
  if b = 0xED then if bytes.getD (k + 1) 0 &&& 0xC7 = 0x43 then k + 4 else k + 2
  else if b = 0xCB then if k = 0 then 2 else k + 3
  else k + baseLength b + (if k > 0 ∧ gainsDisplacement b = true then 1 else 0)

namespace Machine

/-- The addresses an instruction stores a byte to, computed as its rule computes them from the state before it. -/
def storedTo (i : Instr) (s : State) : List Word :=
  match i with
  | .ldMemBcA => [s.bc]
  | .ldMemDeA => [s.de]
  | .ldMemNnHl nn => [nn, nn + 1]
  | .ldMemNnA nn => [nn]
  | .incMemHl => [s.hl]
  | .decMemHl => [s.hl]
  | .ldMemHlN _ => [s.hl]
  | .ldMemHlR _ => [s.hl]
  | .exMemSpHl => [s.sp, s.sp + 1]
  | .callCcNn cc _ => if s.cond cc then [s.sp - 1, s.sp - 2] else []
  | .pushQq _ => [s.sp - 1, s.sp - 2]
  | .callNn _ => [s.sp - 1, s.sp - 2]
  | .rst _ => [s.sp - 1, s.sp - 2]
  | .rlcMemHl => [s.hl]
  | .rrcMemHl => [s.hl]
  | .rlMemHl => [s.hl]
  | .rrMemHl => [s.hl]
  | .slaMemHl => [s.hl]
  | .sraMemHl => [s.hl]
  | .sllMemHl => [s.hl]
  | .srlMemHl => [s.hl]
  | .resBMemHl _ => [s.hl]
  | .setBMemHl _ => [s.hl]
  | .ldMemNnDd _ nn => [nn, nn + 1]
  | .rrd => [s.hl]
  | .rld => [s.hl]
  | .ldi => [s.de]
  | .ini => [s.hl]
  | .ldd => [s.de]
  | .ind => [s.hl]
  | .ldir => [s.de]
  | .inir => [s.hl]
  | .lddr => [s.de]
  | .indr => [s.hl]
  | .ldMemNnIx nn => [nn, nn + 1]
  | .ldMemNnIy nn => [nn, nn + 1]
  | .incMemIx d => [s.indexAddr .ix d]
  | .incMemIy d => [s.indexAddr .iy d]
  | .decMemIx d => [s.indexAddr .ix d]
  | .decMemIy d => [s.indexAddr .iy d]
  | .ldMemIxN d _ => [s.indexAddr .ix d]
  | .ldMemIyN d _ => [s.indexAddr .iy d]
  | .ldMemIxR d _ => [s.indexAddr .ix d]
  | .ldMemIyR d _ => [s.indexAddr .iy d]
  | .exMemSpIx => [s.sp, s.sp + 1]
  | .exMemSpIy => [s.sp, s.sp + 1]
  | .pushIx => [s.sp - 1, s.sp - 2]
  | .pushIy => [s.sp - 1, s.sp - 2]
  | .rlcMemIx d => [s.indexAddr .ix d]
  | .rlcMemIy d => [s.indexAddr .iy d]
  | .rlcMemIxR d _ => [s.indexAddr .ix d]
  | .rlcMemIyR d _ => [s.indexAddr .iy d]
  | .rrcMemIx d => [s.indexAddr .ix d]
  | .rrcMemIy d => [s.indexAddr .iy d]
  | .rrcMemIxR d _ => [s.indexAddr .ix d]
  | .rrcMemIyR d _ => [s.indexAddr .iy d]
  | .rlMemIx d => [s.indexAddr .ix d]
  | .rlMemIy d => [s.indexAddr .iy d]
  | .rlMemIxR d _ => [s.indexAddr .ix d]
  | .rlMemIyR d _ => [s.indexAddr .iy d]
  | .rrMemIx d => [s.indexAddr .ix d]
  | .rrMemIy d => [s.indexAddr .iy d]
  | .rrMemIxR d _ => [s.indexAddr .ix d]
  | .rrMemIyR d _ => [s.indexAddr .iy d]
  | .slaMemIx d => [s.indexAddr .ix d]
  | .slaMemIy d => [s.indexAddr .iy d]
  | .slaMemIxR d _ => [s.indexAddr .ix d]
  | .slaMemIyR d _ => [s.indexAddr .iy d]
  | .sraMemIx d => [s.indexAddr .ix d]
  | .sraMemIy d => [s.indexAddr .iy d]
  | .sraMemIxR d _ => [s.indexAddr .ix d]
  | .sraMemIyR d _ => [s.indexAddr .iy d]
  | .sllMemIx d => [s.indexAddr .ix d]
  | .sllMemIy d => [s.indexAddr .iy d]
  | .sllMemIxR d _ => [s.indexAddr .ix d]
  | .sllMemIyR d _ => [s.indexAddr .iy d]
  | .srlMemIx d => [s.indexAddr .ix d]
  | .srlMemIy d => [s.indexAddr .iy d]
  | .srlMemIxR d _ => [s.indexAddr .ix d]
  | .srlMemIyR d _ => [s.indexAddr .iy d]
  | .resBMemIx _ d => [s.indexAddr .ix d]
  | .resBMemIy _ d => [s.indexAddr .iy d]
  | .resBMemIxR _ d _ => [s.indexAddr .ix d]
  | .resBMemIyR _ d _ => [s.indexAddr .iy d]
  | .setBMemIx _ d => [s.indexAddr .ix d]
  | .setBMemIy _ d => [s.indexAddr .iy d]
  | .setBMemIxR _ d _ => [s.indexAddr .ix d]
  | .setBMemIyR _ d _ => [s.indexAddr .iy d]
  | _ => []

/-- R506, R507: the branch log after an `Emit`. -/
def State.branchLogWith (s : State) (i : Instr) (taken : Bool) (target : Word) : List BranchEvent :=
  if s.branchObserver then ⟨s.opAddr, .instr i, taken, target, s.opTacts⟩ :: s.branchLog else s.branchLog

/-- R506, R508: the stack log after the `Emit` of a load of SP. -/
def State.stackLogWithSp (s : State) (i : Instr) (newSP : Word) : List StackEvent :=
  if s.stackObserver then .pointer s.opAddr (.instr i) s.sp newSP s.opTacts :: s.stackLog else s.stackLog

/-- R506, R509: the stack log after the `Emit` of a push, a pop or an exchange. -/
def State.stackLogWith (s : State) (o : Origin) (access : StackAccess) (newSP : Word) : List StackEvent :=
  if s.stackObserver then .content s.opAddr o access s.sp newSP s.opTacts :: s.stackLog else s.stackLog

/-- What every step and every host call keeps. Memory has its one form; maskable interrupts are enabled only where the save slot says so too
(R31, R32: every writer of IFF1 and IFF2 keeps it); the EI delay stands only right after `EI`, so with IFF1 = 1 and not halted (R37, R299). -/
structure State.Inv (s : State) : Prop where
  memory  : s.mem.wf = true
  enables : s.iff1 = true → s.iff2 = true
  delayEnabled : s.eiDelay = true → s.iff1 = true
  delayRunning : s.eiDelay = true → s.halted = false

/-- The step of the state is the acceptance of a maskable interrupt (R470, R472). -/
def State.takesInt (s : State) : Prop := s.nmiPending = false ∧ s.intPending = true ∧ s.iff1 = true ∧ s.eiDelay = false

/-- The step of the state is no acceptance (R470). -/
def State.acceptsNothing (s : State) : Prop := s.nmiPending = false ∧ ¬(s.intPending = true ∧ s.iff1 = true ∧ s.eiDelay = false)

/-- The step of the state executes an instruction of the program (R470). -/
def State.runsInstruction (s : State) : Prop := s.acceptsNothing ∧ s.halted = false

/-- A mode 0 acceptance for which the spec gives no meaning (R474, U1). -/
def State.im0Unanswered (s : State) : Prop := s.takesInt ∧ s.im = .im0 ∧ s.intBus &&& 0xC7 ≠ 0xC7

/-- The 65,536 bytes that fetches from PC on return are all DD or FD prefixes (R120, D27, U7). -/
def State.allPrefixes (s : State) : Prop := ∀ b ∈ s.bytesAt 65536 s.pc, b = 0xDD ∨ b = 0xFD

/-- The bytes are those that reads one after another return from an address on, wrapping at the top: where no device is, the bytes there. -/
def State.holdsBytes (s : State) (a : Word) (bytes : List Byte) : Prop := s.bytesAt bytes.length a = bytes

/-- The calls that `n` reads one after another from an address on make, newest first, each with the byte it returns. -/
def State.readCalls (s : State) (n : Nat) (a : Word) : List BusEvent :=
  ((List.range n).map fun k => BusEvent.readByte (a + BitVec.ofNat 16 k) ((s.bytesAt n a).getD k 0)).reverse

/-- R10, R470: the state when the operation of an instruction begins: its `len` bytes were read in address order, PC is past them,
R counted the first `m1` of them, the EI delay is over, and the records' address and time are those of the start of the step. -/
def State.fetched (s : State) (len m1 : Nat) : State :=
  { s with
    eiDelay := false, opAddr := s.pc, opTacts := s.tacts, pc := s.pc + BitVec.ofNat 16 len,
    r := (s.r &&& 0x80) ||| ((s.r + BitVec.ofNat 8 m1) &&& 0x7F),
    bus := s.readCalls len s.pc ++ s.bus }

/-- What the debug surface holds is set apart: two states that differ at most in the observers and their logs (R506). -/
def State.withObservers (s : State) (branch stack : Bool) (branchLog : List BranchEvent) (stackLog : List StackEvent) : State :=
  { s with branchObserver := branch, stackObserver := stack, branchLog := branchLog, stackLog := stackLog }

/-- A run: host calls and steps, each on the state the one before left. -/
inductive Run : State → State → Prop
  | start (s : State) : Run s s
  | call {s t : State} (c : HostCall) : Run s t → Run s (t.afterCall c)
  | step {s t u : State} : Run s t → step t = .next u → Run s u

end Machine

end Sys2Proof
end

