-- ==== Sys2Proof/Certificates/Slice0/Obligations.lean ====
section
/-! DEFINITION. The statements about the machine, for the provers. A statement of the form `exec i s = .next { s with … }` says three things: the
instruction completes, what it changes, and that every field it does not name is unchanged. -/

open Sys2Proof Sys2Proof.Machine

/-- Sample encodings decode to the instruction they stand for. Derived: 30_encoding.md sections 2 to 7; the Encoding clauses of 40_load8.md to 49_io.md. -/
def Obligations.DecodeSampleWords : Prop :=
  ∀ rest : List Byte,
  decode ([0b01000001] ++ rest) = .ok ⟨[], .ldRR .b .c, 1, 1⟩ ∧
  decode ([0b00100001, 0x34, 0x12] ++ rest) = .ok ⟨[], .ldDdNn .hl 0x1234, 3, 1⟩ ∧
  decode ([0b11101101, 0b10110000] ++ rest) = .ok ⟨[.prefixED none], .ldir, 2, 2⟩ ∧
  decode ([0b11011101, 0b10000110, 0x05] ++ rest) = .ok ⟨[.prefixDD none], .addAMemIx 0x05, 3, 2⟩ ∧
  decode ([0b01110110] ++ rest) = .ok ⟨[], .halt, 1, 1⟩ ∧
  decode ([0b11101101, 0b01010010] ++ rest) = .ok ⟨[.prefixED none], .sbcHlSs .de, 2, 2⟩ ∧
  decode ([0b11001011, 0b00110111] ++ rest) = .ok ⟨[.prefixCB none], .sllR .a, 2, 2⟩ ∧
  decode ([0b11111101, 0b11001011, 0xFE, 0b11111111] ++ rest) = .ok ⟨[.prefixFD none, .prefixCB (some .iy)], .setBMemIyR 7 0xFE .a, 4, 2⟩ ∧
  decode ([0b11011100, 0x00, 0x90] ++ rest) = .ok ⟨[], .callCcNn .c 0x9000, 3, 1⟩ ∧
  decode ([0b11101101, 0b01111000] ++ rest) = .ok ⟨[.prefixED none], .inRC .a, 2, 2⟩ ∧
  decode ([0b11011101, 0b11111101, 0b00100001, 0x34, 0x12] ++ rest) = .ok ⟨[.prefixDD none, .prefixFD (some .ix)], .ldIyNn 0x1234, 5, 3⟩ ∧
  decode ([0b11011101, 0b00000000] ++ rest) = .ok ⟨[.prefixDD none, .baseRedundant .ix], .nop, 2, 2⟩

/-- Decoding an encoded instruction gives it back. Derived: 30_encoding.md sections 2 to 7; 40_load8.md to 49_io.md, the Encoding clauses. -/
def Obligations.DecodeEncode : Prop :=
  ∀ (i : Instr) (rest : List Byte), i.wellFormed = true →
  decode (encode i ++ rest) = .ok ⟨i.units, i, (encode i).length, i.opcodeFetches⟩

/-- The bytes a decoded instruction took are the bytes of its rows. Derived: 30_encoding.md R101, R102, R123; 30_encoding.md sections 3 to 7. -/
def Obligations.DecodeReencodes : Prop :=
  ∀ (bytes : List Byte) (d : Decoded), decode bytes = .ok d →
  (d.prefixes ++ [d.instr]).flatMap Instr.body = bytes.take d.len ∧ d.instr.wellFormed = true ∧
  1 ≤ d.m1 ∧ d.m1 ≤ d.len ∧ d.len ≤ bytes.length

/-- The length of an instruction, and how many of its bytes count in R. Derived: 30_encoding.md R119; 10_state.md R30; 30_encoding.md R114. -/
def Obligations.DecodeLength : Prop :=
  ∀ (bytes : List Byte) (d : Decoded), decode bytes = .ok d →
  let k := leadingPrefixes bytes
  let b := bytes.getD k 0
  d.len = instructionLength bytes ∧
  d.m1 = k + (if b = 0xED then 2 else if b = 0xCB ∧ k = 0 then 2 else 1)

/-- The decoder is total: only bytes that end too early are rejected. Derived: 30_encoding.md R101, R118, R120. -/
def Obligations.DecodeTotal : Prop :=
  (∀ bytes : List Byte, leadingPrefixes bytes + 4 ≤ bytes.length → ∃ d, decode bytes = .ok d) ∧
  (∀ (bytes rest : List Byte) (d : Decoded), decode bytes = .ok d → decode (bytes ++ rest) = .ok d) ∧
  (∀ bytes : List Byte, decode bytes = .error .incomplete → bytes.length < leadingPrefixes bytes + 4)

/-- A DD/FD prefix that does not govern changes only the fetch. Derived: 30_encoding.md R102, R111, R114; 70_reset_and_hazards.md R540 (rows prefix CB, DD, ED, FD and redundant prefix). -/
def Obligations.RedundantPrefixes : Prop :=
  (∀ (xy xy' : IndexReg) (bytes : List Byte) (us : List Instr) (i : Instr) (len m1 : Nat),
    decode (xy'.byte :: bytes) = .ok ⟨xy'.prefixUnit none :: us, i, len, m1⟩ →
    decode (xy.byte :: xy'.byte :: bytes) = .ok ⟨xy.prefixUnit none :: xy'.prefixUnit (some xy) :: us, i, len + 1, m1 + 1⟩) ∧
  (∀ (xy : IndexReg) (bytes : List Byte) (i : Instr) (len m1 : Nat),
    decode (0xED :: bytes) = .ok ⟨[.prefixED none], i, len, m1⟩ →
    decode (xy.byte :: 0xED :: bytes) = .ok ⟨[xy.prefixUnit none, .prefixED (some xy)], i, len + 1, m1 + 1⟩) ∧
  (∀ (xy : IndexReg) (op : Byte) (bytes : List Byte) (i : Instr) (len m1 : Nat),
    decodeXY xy op (bytes.getD 0 0) (bytes.getD 1 0) = none → decode (op :: bytes) = .ok ⟨[], i, len, m1⟩ →
    decode (xy.byte :: op :: bytes) = .ok ⟨[xy.prefixUnit none, .baseRedundant xy], i, len + 1, m1 + 1⟩) ∧
  (∀ s : State, exec (.prefixDD none) s = .next s ∧ exec (.prefixFD none) s = .next s ∧ exec (.prefixED none) s = .next s ∧ exec (.prefixCB none) s = .next s) ∧
  (∀ (xy : IndexReg) (s : State), exec (.prefixCB (some xy)) s = .next s) ∧
  (∀ (xy : IndexReg) (s : State), exec (.prefixDD (some xy)) s = .next { s with tacts := s.tacts + 4 }) ∧
  (∀ (xy : IndexReg) (s : State), exec (.prefixFD (some xy)) s = .next { s with tacts := s.tacts + 4 }) ∧
  (∀ (xy : IndexReg) (s : State), exec (.prefixED (some xy)) s = .next { s with tacts := s.tacts + 4 }) ∧
  (∀ (xy : IndexReg) (s : State), exec (.baseRedundant xy) s = .next { s with tacts := s.tacts + 4 })

/-- A written byte reads back, every other byte is unchanged, and the form is kept. Derived: 20_memory.md R79 (a read returns the byte last written); 20_memory.md R70. -/
def Obligations.MemoryReadWrite : Prop :=
  (∀ (m : Memory) (a b : Word) (v : Byte), m.wf = true →
    (m.write a v).read b = (if b = a then v else m.read b) ∧ (m.write a v).wf = true ∧ m.write a (m.read a) = m) ∧
  (∀ m n : Memory, m.wf = true → n.wf = true → (∀ a : Word, m.read a = n.read a) → m = n)

/-- A register write reaches that register alone, a half its half alone. Derived: 10_state.md R21, R24; 30_encoding.md R104, R108, R110; 40_load8.md R168. -/
def Obligations.RegisterHalves : Prop :=
  (∀ (s : State) (r r' : Reg8) (v : Byte), (s.setReg8 r v).reg8 r' = if r' = r then v else s.reg8 r') ∧
  (∀ (s : State) (p p' : RegPair) (v : Word), (s.setPair p v).pair p' = if p' = p then v else s.pair p') ∧
  (∀ (s : State) (p p' : StackPair) (v : Word), (s.setStackPair p v).stackPair p' = if p' = p then v else s.stackPair p') ∧
  (∀ (s : State) (xy xy' : IndexReg) (p p' : Half) (v : Byte),
    (s.setHalf xy p v).half xy' p' = if xy' = xy ∧ p' = p then v else s.half xy' p') ∧
  (∀ (s : State) (xy : IndexReg) (q q' : HalfReg) (v : Byte),
    (s.setHalfReg xy q v).halfReg xy q' = if q' = q then v else s.halfReg xy q') ∧
  (∀ (s : State) (xy : IndexReg), s.halfReg xy .xyh = s.half xy .high ∧ s.halfReg xy .xyl = s.half xy .low ∧
    s.halfReg xy .b = s.b ∧ s.halfReg xy .c = s.c ∧ s.halfReg xy .d = s.d ∧ s.halfReg xy .e = s.e ∧ s.halfReg xy .a = s.a) ∧
  (∀ (s : State) (xy : IndexReg) (v : Byte), s.setHalfReg xy .xyh v = s.setHalf xy .high v ∧ s.setHalfReg xy .xyl v = s.setHalf xy .low v ∧
    s.setHalfReg xy .b v = { s with b := v } ∧ s.setHalfReg xy .c v = { s with c := v } ∧ s.setHalfReg xy .d v = { s with d := v } ∧
    s.setHalfReg xy .e v = { s with e := v } ∧ s.setHalfReg xy .a v = { s with a := v }) ∧
  (∀ s : State, s.bc.toNat = 256 * s.b.toNat + s.c.toNat ∧ s.de.toNat = 256 * s.d.toNat + s.e.toNat ∧
    s.hl.toNat = 256 * s.h.toNat + s.l.toNat ∧ s.af.toNat = 256 * s.a.toNat + s.f.toNat) ∧
  (∀ (s : State) (xy : IndexReg), (s.index xy).toNat = 256 * (s.half xy .high).toNat + (s.half xy .low).toNat) ∧
  (∀ (s : State) (xy : IndexReg) (d : Byte), (s.indexAddr xy d).toNat = (((s.index xy).toNat : Int) + d.toInt) % 65536)

/-- The flag byte holds S Z R5 H R3 PV N C from bit 7 to bit 0. Derived: 10_state.md R27; 00_scope.md R12. -/
def Obligations.FlagByteLayout : Prop :=
  (∀ f : Byte, (Flags.ofByte f).toByte = f) ∧ (∀ g : Flags, Flags.ofByte g.toByte = g) ∧
  (∀ g : Flags, g.toByte.toNat = 128 * g.s.toNat + 64 * g.z.toNat + 32 * g.r5.toNat + 16 * g.h.toNat +
    8 * g.r3.toNat + 4 * g.pv.toNat + 2 * g.n.toNat + g.c.toNat) ∧
  (∀ s : State, s.cond .nz = !s.f.getLsbD 6 ∧ s.cond .z = s.f.getLsbD 6 ∧ s.cond .nc = !s.f.getLsbD 0 ∧ s.cond .c = s.f.getLsbD 0 ∧
    s.cond .po = !s.f.getLsbD 2 ∧ s.cond .pe = s.f.getLsbD 2 ∧ s.cond .p = !s.f.getLsbD 7 ∧ s.cond .m = s.f.getLsbD 7) ∧
  (∀ s : State, s.jrCond .nz = s.cond .nz ∧ s.jrCond .z = s.cond .z ∧ s.jrCond .nc = s.cond .nc ∧ s.jrCond .c = s.cond .c)

/-- ADD8: result, carry, half carry and signed overflow as exact sums. Stated: 43_alu8.md R220. -/
def Obligations.Add8Flags : Prop :=
  ∀ (a b : Byte) (c : Bool),
  let sum := a.toNat + b.toNat + c.toNat
  let res := (add8 a b c).1
  let fl := (add8 a b c).2
  res.toNat = sum % 256 ∧ fl.s = res.getLsbD 7 ∧ (fl.z = true ↔ res = 0) ∧ fl.r5 = res.getLsbD 5 ∧ fl.r3 = res.getLsbD 3 ∧
  (fl.h = true ↔ a.toNat % 16 + b.toNat % 16 + c.toNat > 15) ∧ fl.h = (a ^^^ b ^^^ res).getLsbD 4 ∧
  (fl.pv = true ↔ a.getLsbD 7 = b.getLsbD 7 ∧ res.getLsbD 7 ≠ a.getLsbD 7) ∧
  (fl.pv = true ↔ a.toInt + b.toInt + c.toNat < -128 ∨ a.toInt + b.toInt + c.toNat > 127) ∧
  fl.n = false ∧ (fl.c = true ↔ sum > 255)

/-- SUB8: result, borrows and signed overflow as exact differences. Stated: 43_alu8.md R221. -/
def Obligations.Sub8Flags : Prop :=
  ∀ (a b : Byte) (c : Bool),
  let diff : Int := a.toNat - b.toNat - c.toNat
  let res := (sub8 a b c).1
  let fl := (sub8 a b c).2
  (res.toNat : Int) = diff % 256 ∧ fl.s = res.getLsbD 7 ∧ (fl.z = true ↔ res = 0) ∧ fl.r5 = res.getLsbD 5 ∧ fl.r3 = res.getLsbD 3 ∧
  (fl.h = true ↔ ((a.toNat % 16 : Nat) : Int) - (b.toNat % 16 : Nat) - c.toNat < 0) ∧ fl.h = (a ^^^ b ^^^ res).getLsbD 4 ∧
  (fl.pv = true ↔ a.getLsbD 7 ≠ b.getLsbD 7 ∧ res.getLsbD 7 ≠ a.getLsbD 7) ∧
  (fl.pv = true ↔ a.toInt - b.toInt - c.toNat < -128 ∨ a.toInt - b.toInt - c.toNat > 127) ∧
  fl.n = true ∧ (fl.c = true ↔ diff < 0) ∧ (fl.c = true ↔ b.toNat + c.toNat > a.toNat)

/-- LOGIC8 and CP8: the flags of AND, XOR, OR and of a compare. Stated: 43_alu8.md R222, R223. -/
def Obligations.LogicCompareFlags : Prop :=
  (∀ (isAnd : Bool) (res : Byte),
  let fl := logic8 isAnd res
  fl.s = res.getLsbD 7 ∧ (fl.z = true ↔ res = 0) ∧ fl.r5 = res.getLsbD 5 ∧ fl.r3 = res.getLsbD 3 ∧ fl.h = isAnd ∧
  (fl.pv = true ↔ ((List.range 8).countP fun k => res.getLsbD k) % 2 = 0) ∧ fl.n = false ∧ fl.c = false) ∧
  (∀ a v : Byte,
  let fl := cp8 a v
  fl = { (sub8 a v false).2 with r5 := v.getLsbD 5, r3 := v.getLsbD 3 } ∧
  (fl.z = true ↔ a = v) ∧ (fl.c = true ↔ a.toNat < v.toNat) ∧ (fl.s ≠ fl.pv ↔ a.toInt < v.toInt))

/-- INC8 and DEC8: the flags as functions of the byte, the carry kept. Stated: 43_alu8.md R224, R225. -/
def Obligations.IncDec8Flags : Prop :=
  ∀ (v : Byte) (old : Flags),
  (let res := (inc8 v old).1
   let fl := (inc8 v old).2
   res.toNat = (v.toNat + 1) % 256 ∧ fl.s = res.getLsbD 7 ∧ (fl.z = true ↔ res = 0) ∧ (fl.z = true ↔ v = 0xFF) ∧ fl.r5 = res.getLsbD 5 ∧
   fl.r3 = res.getLsbD 3 ∧ (fl.h = true ↔ res.toNat % 16 = 0) ∧ (fl.h = true ↔ v.toNat % 16 = 15) ∧ (fl.pv = true ↔ res = 0x80) ∧ (fl.pv = true ↔ v = 0x7F) ∧
   fl.n = false ∧ fl.c = old.c ∧
   (inc8 0x7F old).2.toByte = 0x94 ||| flagBit old.c ∧ (inc8 0xFF old).2.toByte = 0x50 ||| flagBit old.c) ∧
  (let res := (dec8 v old).1
   let fl := (dec8 v old).2
   (res.toNat : Int) = ((v.toNat : Int) - 1) % 256 ∧ fl.s = res.getLsbD 7 ∧ (fl.z = true ↔ res = 0) ∧ (fl.z = true ↔ v = 0x01) ∧ fl.r5 = res.getLsbD 5 ∧
   fl.r3 = res.getLsbD 3 ∧ (fl.h = true ↔ res.toNat % 16 = 15) ∧ (fl.h = true ↔ v.toNat % 16 = 0) ∧ (fl.pv = true ↔ res = 0x7F) ∧ (fl.pv = true ↔ v = 0x80) ∧
   fl.n = true ∧ fl.c = old.c ∧
   (dec8 0x80 old).2.toByte = 0x3E ||| flagBit old.c ∧ (dec8 0x01 old).2.toByte = 0x42 ||| flagBit old.c)

/-- ROT: the eight rotates and shifts as numbers, with their flags. Stated: 46_rotate_shift.md R330. -/
def Obligations.RotateFlags : Prop :=
  ∀ (v : Byte) (cin : Bool),
  ((rot .rlc v cin).1.toNat = v.toNat * 2 % 256 + v.toNat / 128 ∧ (rot .rlc v cin).2.c = v.getLsbD 7) ∧
  ((rot .rrc v cin).1.toNat = v.toNat / 2 + 128 * (v.toNat % 2) ∧ (rot .rrc v cin).2.c = v.getLsbD 0) ∧
  ((rot .rl v cin).1.toNat = v.toNat * 2 % 256 + cin.toNat ∧ (rot .rl v cin).2.c = v.getLsbD 7) ∧
  ((rot .rr v cin).1.toNat = v.toNat / 2 + 128 * cin.toNat ∧ (rot .rr v cin).2.c = v.getLsbD 0) ∧
  ((rot .sla v cin).1.toNat = v.toNat * 2 % 256 ∧ (rot .sla v cin).2.c = v.getLsbD 7) ∧
  ((rot .sra v cin).1.toNat = v.toNat / 2 + 128 * (v.toNat / 128) ∧ (rot .sra v cin).2.c = v.getLsbD 0) ∧
  ((rot .sll v cin).1.toNat = v.toNat * 2 % 256 + 1 ∧ (rot .sll v cin).2.c = v.getLsbD 7) ∧
  ((rot .srl v cin).1.toNat = v.toNat / 2 ∧ (rot .srl v cin).2.c = v.getLsbD 0) ∧
  ∀ k : RotKind,
    let res := (rot k v cin).1
    let fl := (rot k v cin).2
    fl.s = res.getLsbD 7 ∧ (fl.z = true ↔ res = 0) ∧ fl.r5 = res.getLsbD 5 ∧ fl.r3 = res.getLsbD 3 ∧ fl.h = false ∧ fl.n = false ∧
    (fl.pv = true ↔ ((List.range 8).countP fun j => res.getLsbD j) % 2 = 0)

/-- 8-bit loads: the destination register takes the byte, nothing else changes but WZ and time. Derived: 40_load8.md R150 to R153, R158 to R160, R168, R169 (operation, flags, WZ, time). -/
def Obligations.Load8 : Prop :=
  (∀ (r : Reg8) (r' : Reg8) (s : State), exec (.ldRR r r') s = .next (({ s with tacts := s.tacts + 4 } : State).setReg8 r (s.reg8 r'))) ∧
  (∀ (r : Reg8) (n : Byte) (s : State), exec (.ldRN r n) s = .next (({ s with tacts := s.tacts + 7 } : State).setReg8 r n)) ∧
  (∀ (xy : IndexReg) (q : HalfReg) (q' : HalfReg) (s : State), exec (.ldQQ xy q q') s = .next (({ s with tacts := s.tacts + 8 } : State).setHalfReg xy q (s.halfReg xy q'))) ∧
  (∀ (xy : IndexReg) (p : Half) (n : Byte) (s : State), exec (.ldPN xy p n) s = .next (({ s with tacts := s.tacts + 11 } : State).setHalf xy p n)) ∧
  (∀ (r : Reg8) (s : State), exec (.ldRMemHl r) s = .next (({ s with bus := .readByte s.hl (s.peek s.hl) :: s.bus, tacts := s.tacts + 7 } : State).setReg8 r (s.peek s.hl))) ∧
  (∀ (r : Reg8) (d : Byte) (s : State), exec (.ldRMemIx r d) s = .next (({ s with wz := (s.indexAddr .ix d), bus := .readByte (s.indexAddr .ix d) (s.peek (s.indexAddr .ix d)) :: s.bus, tacts := s.tacts + 19 } : State).setReg8 r (s.peek (s.indexAddr .ix d)))) ∧
  (∀ (r : Reg8) (d : Byte) (s : State), exec (.ldRMemIy r d) s = .next (({ s with wz := (s.indexAddr .iy d), bus := .readByte (s.indexAddr .iy d) (s.peek (s.indexAddr .iy d)) :: s.bus, tacts := s.tacts + 19 } : State).setReg8 r (s.peek (s.indexAddr .iy d)))) ∧
  (∀ (s : State), exec .ldAMemBc s = .next { s with a := s.peek s.bc, wz := s.bc + 1, bus := .readByte s.bc (s.peek s.bc) :: s.bus, tacts := s.tacts + 7 }) ∧
  (∀ (s : State), exec .ldAMemDe s = .next { s with a := s.peek s.de, wz := s.de + 1, bus := .readByte s.de (s.peek s.de) :: s.bus, tacts := s.tacts + 7 }) ∧
  (∀ (nn : Word) (s : State), exec (.ldAMemNn nn) s = .next { s with a := s.peek nn, wz := nn + 1, bus := .readByte nn (s.peek nn) :: s.bus, tacts := s.tacts + 13 })

/-- 8-bit stores: one byte of memory takes the value, no register or flag changes but WZ. Derived: 40_load8.md R154 to R157, R161 to R163 (operation, flags, WZ, time). -/
def Obligations.Store8 : Prop :=
  (∀ (r : Reg8) (s : State), exec (.ldMemHlR r) s = .next { s with mem := s.mem.store s.memMap s.hl (s.reg8 r), bus := .writeByte s.hl (s.reg8 r) :: s.bus, tacts := s.tacts + 7 }) ∧
  (∀ (n : Byte) (s : State), exec (.ldMemHlN n) s = .next { s with mem := s.mem.store s.memMap s.hl n, bus := .writeByte s.hl n :: s.bus, tacts := s.tacts + 10 }) ∧
  (∀ (d : Byte) (r : Reg8) (s : State), exec (.ldMemIxR d r) s = .next { s with mem := s.mem.store s.memMap (s.indexAddr .ix d) (s.reg8 r), bus := .writeByte (s.indexAddr .ix d) (s.reg8 r) :: s.bus, wz := (s.indexAddr .ix d), tacts := s.tacts + 19 }) ∧
  (∀ (d : Byte) (n : Byte) (s : State), exec (.ldMemIxN d n) s = .next { s with mem := s.mem.store s.memMap (s.indexAddr .ix d) n, bus := .writeByte (s.indexAddr .ix d) n :: s.bus, wz := (s.indexAddr .ix d), tacts := s.tacts + 19 }) ∧
  (∀ (d : Byte) (r : Reg8) (s : State), exec (.ldMemIyR d r) s = .next { s with mem := s.mem.store s.memMap (s.indexAddr .iy d) (s.reg8 r), bus := .writeByte (s.indexAddr .iy d) (s.reg8 r) :: s.bus, wz := (s.indexAddr .iy d), tacts := s.tacts + 19 }) ∧
  (∀ (d : Byte) (n : Byte) (s : State), exec (.ldMemIyN d n) s = .next { s with mem := s.mem.store s.memMap (s.indexAddr .iy d) n, bus := .writeByte (s.indexAddr .iy d) n :: s.bus, wz := (s.indexAddr .iy d), tacts := s.tacts + 19 }) ∧
  (∀ (s : State), exec .ldMemBcA s = .next { s with mem := s.mem.store s.memMap s.bc s.a, bus := .writeByte s.bc s.a :: s.bus, wz := word s.a (s.c + 1), tacts := s.tacts + 7 }) ∧
  (∀ (s : State), exec .ldMemDeA s = .next { s with mem := s.mem.store s.memMap s.de s.a, bus := .writeByte s.de s.a :: s.bus, wz := word s.a (s.e + 1), tacts := s.tacts + 7 }) ∧
  (∀ (nn : Word) (s : State), exec (.ldMemNnA nn) s = .next { s with mem := s.mem.store s.memMap nn s.a, bus := .writeByte nn s.a :: s.bus, wz := word s.a (lo nn + 1), tacts := s.tacts + 13 })

/-- LD A,I and LD A,R copy IFF2 to PV; LD I,A and LD R,A write all eight bits. Derived: 40_load8.md R164 to R167 (operation, flags, time; R is as after the fetches of the instruction). -/
def Obligations.InterruptRegisterLoads : Prop :=
  (∀ (s : State), exec .ldAI s = .next { s with a := s.i, f := ({ s := s.i.getLsbD 7, z := s.i == 0, r5 := s.i.getLsbD 5, h := false, r3 := s.i.getLsbD 3, pv := s.iff2, n := false, c := s.f.getLsbD 0 } : Flags).toByte, tacts := s.tacts + 9 }) ∧
  (∀ (s : State), exec .ldAR s = .next { s with a := s.r, f := ({ s := s.r.getLsbD 7, z := s.r == 0, r5 := s.r.getLsbD 5, h := false, r3 := s.r.getLsbD 3, pv := s.iff2, n := false, c := s.f.getLsbD 0 } : Flags).toByte, tacts := s.tacts + 9 }) ∧
  (∀ (s : State), exec .ldIA s = .next { s with i := s.a, tacts := s.tacts + 9 }) ∧
  (∀ (s : State), exec .ldRA s = .next { s with r := s.a, tacts := s.tacts + 9 })

/-- 16-bit loads and stores, low byte at the lower address. Derived: 41_load16_stack.md R180 to R189 (operation, flags, WZ, events, time); 20_memory.md R71. -/
def Obligations.LoadStore16 : Prop :=
  (∀ (dd : RegPair) (nn : Word) (s : State), exec (.ldDdNn dd nn) s = .next (({ s with stackLog := if dd = .sp then s.stackLogWithSp (.ldDdNn dd nn) nn else s.stackLog, tacts := s.tacts + 10 } : State).setPair dd nn)) ∧
  (∀ (nn : Word) (s : State), exec (.ldIxNn nn) s = .next { s with ix := nn, tacts := s.tacts + 14 }) ∧
  (∀ (nn : Word) (s : State), exec (.ldIyNn nn) s = .next { s with iy := nn, tacts := s.tacts + 14 }) ∧
  (∀ (nn : Word) (s : State), exec (.ldHlMemNn nn) s = .next { s with h := s.peekNext nn (nn + 1), l := s.peek nn, wz := nn + 1, bus := .readByte (nn + 1) (s.peekNext nn (nn + 1)) :: .readByte nn (s.peek nn) :: s.bus, tacts := s.tacts + 16 }) ∧
  (∀ (dd : RegPair) (nn : Word) (s : State), exec (.ldDdMemNn dd nn) s = .next (({ s with stackLog := if dd = .sp then s.stackLogWithSp (.ldDdMemNn dd nn) (word (s.peekNext nn (nn + 1)) (s.peek nn)) else s.stackLog, wz := nn + 1, bus := .readByte (nn + 1) (s.peekNext nn (nn + 1)) :: .readByte nn (s.peek nn) :: s.bus, tacts := s.tacts + 20 } : State).setPair dd (word (s.peekNext nn (nn + 1)) (s.peek nn)))) ∧
  (∀ (nn : Word) (s : State), exec (.ldIxMemNn nn) s = .next { s with ix := word (s.peekNext nn (nn + 1)) (s.peek nn), wz := nn + 1, bus := .readByte (nn + 1) (s.peekNext nn (nn + 1)) :: .readByte nn (s.peek nn) :: s.bus, tacts := s.tacts + 20 }) ∧
  (∀ (nn : Word) (s : State), exec (.ldIyMemNn nn) s = .next { s with iy := word (s.peekNext nn (nn + 1)) (s.peek nn), wz := nn + 1, bus := .readByte (nn + 1) (s.peekNext nn (nn + 1)) :: .readByte nn (s.peek nn) :: s.bus, tacts := s.tacts + 20 }) ∧
  (∀ (s : State), exec .ldSpHl s = .next { s with sp := s.hl, stackLog := s.stackLogWithSp .ldSpHl s.hl, tacts := s.tacts + 6 }) ∧
  (∀ (s : State), exec .ldSpIx s = .next { s with sp := s.ix, stackLog := s.stackLogWithSp .ldSpIx s.ix, tacts := s.tacts + 10 }) ∧
  (∀ (s : State), exec .ldSpIy s = .next { s with sp := s.iy, stackLog := s.stackLogWithSp .ldSpIy s.iy, tacts := s.tacts + 10 }) ∧
  (∀ (nn : Word) (s : State), exec (.ldMemNnHl nn) s = .next { s with mem := (s.mem.store s.memMap nn s.l).store s.memMap (nn + 1) s.h, bus := .writeByte (nn + 1) s.h :: .writeByte nn s.l :: s.bus, wz := nn + 1, tacts := s.tacts + 16 }) ∧
  (∀ (dd : RegPair) (nn : Word) (s : State), exec (.ldMemNnDd dd nn) s = .next { s with mem := (s.mem.store s.memMap nn (lo (s.pair dd))).store s.memMap (nn + 1) (hi (s.pair dd)), bus := .writeByte (nn + 1) (hi (s.pair dd)) :: .writeByte nn (lo (s.pair dd)) :: s.bus, wz := nn + 1, tacts := s.tacts + 20 }) ∧
  (∀ (nn : Word) (s : State), exec (.ldMemNnIx nn) s = .next { s with mem := (s.mem.store s.memMap nn (lo s.ix)).store s.memMap (nn + 1) (hi s.ix), bus := .writeByte (nn + 1) (hi s.ix) :: .writeByte nn (lo s.ix) :: s.bus, wz := nn + 1, tacts := s.tacts + 20 }) ∧
  (∀ (nn : Word) (s : State), exec (.ldMemNnIy nn) s = .next { s with mem := (s.mem.store s.memMap nn (lo s.iy)).store s.memMap (nn + 1) (hi s.iy), bus := .writeByte (nn + 1) (hi s.iy) :: .writeByte nn (lo s.iy) :: s.bus, wz := nn + 1, tacts := s.tacts + 20 })

/-- PUSH writes high then low below SP, POP reads low then high. Derived: 41_load16_stack.md R190 to R193 (operation, flags, events, time); 00_scope.md R11. -/
def Obligations.PushPop : Prop :=
  (∀ (qq : StackPair) (s : State), exec (.pushQq qq) s = .next { s with sp := s.sp - 2, mem := (s.mem.store s.memMap (s.sp - 1) (hi (s.stackPair qq))).store s.memMap (s.sp - 2) (lo (s.stackPair qq)), bus := .writeByte (s.sp - 2) (lo (s.stackPair qq)) :: .writeByte (s.sp - 1) (hi (s.stackPair qq)) :: s.bus, stackLog := s.stackLogWith (.instr (.pushQq qq)) (.push (s.stackPair qq)) (s.sp - 2), tacts := s.tacts + 11 }) ∧
  (∀ (s : State), exec .pushIx s = .next { s with sp := s.sp - 2, mem := (s.mem.store s.memMap (s.sp - 1) (hi s.ix)).store s.memMap (s.sp - 2) (lo s.ix), bus := .writeByte (s.sp - 2) (lo s.ix) :: .writeByte (s.sp - 1) (hi s.ix) :: s.bus, stackLog := s.stackLogWith (.instr .pushIx) (.push s.ix) (s.sp - 2), tacts := s.tacts + 15 }) ∧
  (∀ (s : State), exec .pushIy s = .next { s with sp := s.sp - 2, mem := (s.mem.store s.memMap (s.sp - 1) (hi s.iy)).store s.memMap (s.sp - 2) (lo s.iy), bus := .writeByte (s.sp - 2) (lo s.iy) :: .writeByte (s.sp - 1) (hi s.iy) :: s.bus, stackLog := s.stackLogWith (.instr .pushIy) (.push s.iy) (s.sp - 2), tacts := s.tacts + 15 }) ∧
  (∀ (qq : StackPair) (s : State), exec (.popQq qq) s = .next (({ s with sp := s.sp + 2, bus := .readByte (s.sp + 1) (s.peekNext s.sp (s.sp + 1)) :: .readByte s.sp (s.peek s.sp) :: s.bus, stackLog := s.stackLogWith (.instr (.popQq qq)) (.pop (word (s.peekNext s.sp (s.sp + 1)) (s.peek s.sp))) (s.sp + 2), tacts := s.tacts + 10 } : State).setStackPair qq (word (s.peekNext s.sp (s.sp + 1)) (s.peek s.sp)))) ∧
  (∀ (s : State), exec .popIx s = .next { s with sp := s.sp + 2, bus := .readByte (s.sp + 1) (s.peekNext s.sp (s.sp + 1)) :: .readByte s.sp (s.peek s.sp) :: s.bus, stackLog := s.stackLogWith (.instr .popIx) (.pop (word (s.peekNext s.sp (s.sp + 1)) (s.peek s.sp))) (s.sp + 2), ix := word (s.peekNext s.sp (s.sp + 1)) (s.peek s.sp), tacts := s.tacts + 14 }) ∧
  (∀ (s : State), exec .popIy s = .next { s with sp := s.sp + 2, bus := .readByte (s.sp + 1) (s.peekNext s.sp (s.sp + 1)) :: .readByte s.sp (s.peek s.sp) :: s.bus, stackLog := s.stackLogWith (.instr .popIy) (.pop (word (s.peekNext s.sp (s.sp + 1)) (s.peek s.sp))) (s.sp + 2), iy := word (s.peekNext s.sp (s.sp + 1)) (s.peek s.sp), tacts := s.tacts + 14 })

/-- A pushed pair pops back, from any SP, and the stack is as before. Derived: 41_load16_stack.md R190, R192; 00_scope.md R11. -/
def Obligations.PushThenPop : Prop :=
  ∀ (qq : StackPair) (s : State), s.mem.wf = true → s.memMap.kindAt (s.sp - 1) = .ram → s.memMap.kindAt (s.sp - 2) = .ram → ∃ t u, exec (.pushQq qq) s = .next t ∧ exec (.popQq qq) t = .next u ∧
  t.peek (s.sp - 1) = hi (s.stackPair qq) ∧ t.peek (s.sp - 2) = lo (s.stackPair qq) ∧
  (∀ a : Word, s.memMap.kindAt a ≠ .device → a ≠ s.sp - 1 → a ≠ s.sp - 2 → t.peek a = s.peek a) ∧
  u = { s with mem := t.mem, bus := u.bus, stackLog := u.stackLog, tacts := s.tacts + 21 }

/-- The register exchanges swap exactly the named registers; EX (SP) swaps with the stack top. Derived: 42_exchange_block.md R200 to R204 (operation, flags, WZ, events, time). -/
def Obligations.Exchanges : Prop :=
  (∀ (s : State), exec .exDeHl s = .next { s with d := s.h, e := s.l, h := s.d, l := s.e, tacts := s.tacts + 4 }) ∧
  (∀ (s : State), exec .exAfAf s = .next { s with a := s.a', f := s.f', a' := s.a, f' := s.f, tacts := s.tacts + 4 }) ∧
  (∀ (s : State), exec .exx s = .next { s with b := s.b', c := s.c', d := s.d', e := s.e', h := s.h', l := s.l', b' := s.b, c' := s.c, d' := s.d, e' := s.e, h' := s.h, l' := s.l, tacts := s.tacts + 4 }) ∧
  (∀ (s : State), exec .exMemSpHl s = .next { s with h := s.peekNext s.sp (s.sp + 1), l := s.peek s.sp, wz := word (s.peekNext s.sp (s.sp + 1)) (s.peek s.sp), mem := (s.mem.store s.memMap (s.sp + 1) s.h).store s.memMap s.sp s.l, bus := .writeByte s.sp s.l :: .writeByte (s.sp + 1) s.h :: .readByte (s.sp + 1) (s.peekNext s.sp (s.sp + 1)) :: .readByte s.sp (s.peek s.sp) :: s.bus, stackLog := s.stackLogWith (.instr .exMemSpHl) (.exchange (word (s.peekNext s.sp (s.sp + 1)) (s.peek s.sp)) s.hl) s.sp, tacts := s.tacts + 19 }) ∧
  (∀ (s : State), exec .exMemSpIx s = .next { s with ix := word (s.peekNext s.sp (s.sp + 1)) (s.peek s.sp), wz := word (s.peekNext s.sp (s.sp + 1)) (s.peek s.sp), mem := (s.mem.store s.memMap (s.sp + 1) (hi s.ix)).store s.memMap s.sp (lo s.ix), bus := .writeByte s.sp (lo s.ix) :: .writeByte (s.sp + 1) (hi s.ix) :: .readByte (s.sp + 1) (s.peekNext s.sp (s.sp + 1)) :: .readByte s.sp (s.peek s.sp) :: s.bus, stackLog := s.stackLogWith (.instr .exMemSpIx) (.exchange (word (s.peekNext s.sp (s.sp + 1)) (s.peek s.sp)) s.ix) s.sp, tacts := s.tacts + 23 }) ∧
  (∀ (s : State), exec .exMemSpIy s = .next { s with iy := word (s.peekNext s.sp (s.sp + 1)) (s.peek s.sp), wz := word (s.peekNext s.sp (s.sp + 1)) (s.peek s.sp), mem := (s.mem.store s.memMap (s.sp + 1) (hi s.iy)).store s.memMap s.sp (lo s.iy), bus := .writeByte s.sp (lo s.iy) :: .writeByte (s.sp + 1) (hi s.iy) :: .readByte (s.sp + 1) (s.peekNext s.sp (s.sp + 1)) :: .readByte s.sp (s.peek s.sp) :: s.bus, stackLog := s.stackLogWith (.instr .exMemSpIy) (.exchange (word (s.peekNext s.sp (s.sp + 1)) (s.peek s.sp)) s.iy) s.sp, tacts := s.tacts + 23 })

/-- LDI to LDDR and CPI to CPDR: one byte moved or compared per step, repeated by setting PC back. Derived: 42_exchange_block.md R205 to R212 (operation, flags, WZ, time); 43_alu8.md R221. -/
def Obligations.BlockTransferAndSearch : Prop :=
  (∀ (s : State), let v := s.peek s.hl; exec .ldi s = .next { s with h := hi (s.hl + 1), l := lo (s.hl + 1), d := hi (s.de + 1), e := lo (s.de + 1), b := hi (s.bc - 1), c := lo (s.bc - 1), f := ({ s.flags with r5 := (v + s.a).getLsbD 1, h := false, r3 := (v + s.a).getLsbD 3, pv := s.bc - 1 != 0, n := false } : Flags).toByte, mem := s.mem.store s.memMap s.de v, bus := .writeByte s.de v :: .readByte s.hl v :: s.bus, tacts := s.tacts + 16 }) ∧
  (∀ (s : State), let v := s.peek s.hl; exec .ldd s = .next { s with h := hi (s.hl - 1), l := lo (s.hl - 1), d := hi (s.de - 1), e := lo (s.de - 1), b := hi (s.bc - 1), c := lo (s.bc - 1), f := ({ s.flags with r5 := (v + s.a).getLsbD 1, h := false, r3 := (v + s.a).getLsbD 3, pv := s.bc - 1 != 0, n := false } : Flags).toByte, mem := s.mem.store s.memMap s.de v, bus := .writeByte s.de v :: .readByte s.hl v :: s.bus, tacts := s.tacts + 16 }) ∧
  (∀ (s : State), let v := s.peek s.hl; exec .ldir s = .next { s with h := hi (s.hl + 1), l := lo (s.hl + 1), d := hi (s.de + 1), e := lo (s.de + 1), b := hi (s.bc - 1), c := lo (s.bc - 1), f := ({ s.flags with r5 := (v + s.a).getLsbD 1, h := false, r3 := (v + s.a).getLsbD 3, pv := s.bc - 1 != 0, n := false } : Flags).toByte, mem := s.mem.store s.memMap s.de v, bus := .writeByte s.de v :: .readByte s.hl v :: s.bus, pc := if s.bc - 1 = 0 then s.pc else s.pc - 2, wz := if s.bc - 1 = 0 then s.wz else s.pc - 1, tacts := s.tacts + if s.bc - 1 = 0 then 16 else 21 }) ∧
  (∀ (s : State), let v := s.peek s.hl; exec .lddr s = .next { s with h := hi (s.hl - 1), l := lo (s.hl - 1), d := hi (s.de - 1), e := lo (s.de - 1), b := hi (s.bc - 1), c := lo (s.bc - 1), f := ({ s.flags with r5 := (v + s.a).getLsbD 1, h := false, r3 := (v + s.a).getLsbD 3, pv := s.bc - 1 != 0, n := false } : Flags).toByte, mem := s.mem.store s.memMap s.de v, bus := .writeByte s.de v :: .readByte s.hl v :: s.bus, pc := if s.bc - 1 = 0 then s.pc else s.pc - 2, wz := if s.bc - 1 = 0 then s.wz else s.pc - 1, tacts := s.tacts + if s.bc - 1 = 0 then 16 else 21 }) ∧
  (∀ (s : State), let v := s.peek s.hl; let res := s.a - v; let hf := (sub8 s.a v false).2.h; let n := res - flagBit hf; exec .cpi s = .next { s with h := hi (s.hl + 1), l := lo (s.hl + 1), b := hi (s.bc - 1), c := lo (s.bc - 1), f := ({ s := res.getLsbD 7, z := res == 0, r5 := n.getLsbD 1, h := hf, r3 := n.getLsbD 3, pv := s.bc - 1 != 0, n := true, c := s.flags.c } : Flags).toByte, bus := .readByte s.hl v :: s.bus, wz := s.wz + 1, tacts := s.tacts + 16 }) ∧
  (∀ (s : State), let v := s.peek s.hl; let res := s.a - v; let hf := (sub8 s.a v false).2.h; let n := res - flagBit hf; exec .cpd s = .next { s with h := hi (s.hl - 1), l := lo (s.hl - 1), b := hi (s.bc - 1), c := lo (s.bc - 1), f := ({ s := res.getLsbD 7, z := res == 0, r5 := n.getLsbD 1, h := hf, r3 := n.getLsbD 3, pv := s.bc - 1 != 0, n := true, c := s.flags.c } : Flags).toByte, bus := .readByte s.hl v :: s.bus, wz := s.wz - 1, tacts := s.tacts + 16 }) ∧
  (∀ (s : State), let v := s.peek s.hl; let res := s.a - v; let hf := (sub8 s.a v false).2.h; let n := res - flagBit hf; exec .cpir s = .next { s with h := hi (s.hl + 1), l := lo (s.hl + 1), b := hi (s.bc - 1), c := lo (s.bc - 1), f := ({ s := res.getLsbD 7, z := res == 0, r5 := n.getLsbD 1, h := hf, r3 := n.getLsbD 3, pv := s.bc - 1 != 0, n := true, c := s.flags.c } : Flags).toByte, bus := .readByte s.hl v :: s.bus, pc := if s.bc - 1 ≠ 0 ∧ res ≠ 0 then s.pc - 2 else s.pc, wz := if s.bc - 1 ≠ 0 ∧ res ≠ 0 then s.pc - 1 else s.wz + 1, tacts := s.tacts + if s.bc - 1 ≠ 0 ∧ res ≠ 0 then 21 else 16 }) ∧
  (∀ (s : State), let v := s.peek s.hl; let res := s.a - v; let hf := (sub8 s.a v false).2.h; let n := res - flagBit hf; exec .cpdr s = .next { s with h := hi (s.hl - 1), l := lo (s.hl - 1), b := hi (s.bc - 1), c := lo (s.bc - 1), f := ({ s := res.getLsbD 7, z := res == 0, r5 := n.getLsbD 1, h := hf, r3 := n.getLsbD 3, pv := s.bc - 1 != 0, n := true, c := s.flags.c } : Flags).toByte, bus := .readByte s.hl v :: s.bus, pc := if s.bc - 1 ≠ 0 ∧ res ≠ 0 then s.pc - 2 else s.pc, wz := if s.bc - 1 ≠ 0 ∧ res ≠ 0 then s.pc - 1 else s.wz - 1, tacts := s.tacts + if s.bc - 1 ≠ 0 ∧ res ≠ 0 then 21 else 16 })

/-- The eight operations on A with a register, an immediate or a half of IX or IY. Derived: 43_alu8.md R226, R230 to R232, R234 to R237, R239 to R242, R244 to R247, R249 to R252, R254 to R257, R259 to R262, R264 to R267, R269 (register, immediate and half forms). -/
def Obligations.AluRegister : Prop :=
  (∀ (r : Reg8) (s : State), exec (.addAR r) s = .next { s with a := (add8 s.a (s.reg8 r) false).1, f := (add8 s.a (s.reg8 r) false).2.toByte, tacts := s.tacts + 4 }) ∧
  (∀ (n : Byte) (s : State), exec (.addAN n) s = .next { s with a := (add8 s.a n false).1, f := (add8 s.a n false).2.toByte, tacts := s.tacts + 7 }) ∧
  (∀ (xy : IndexReg) (p : Half) (s : State), exec (.addAP xy p) s = .next { s with a := (add8 s.a (s.half xy p) false).1, f := (add8 s.a (s.half xy p) false).2.toByte, tacts := s.tacts + 8 }) ∧
  (∀ (r : Reg8) (s : State), exec (.adcAR r) s = .next { s with a := (add8 s.a (s.reg8 r) (s.f.getLsbD 0)).1, f := (add8 s.a (s.reg8 r) (s.f.getLsbD 0)).2.toByte, tacts := s.tacts + 4 }) ∧
  (∀ (n : Byte) (s : State), exec (.adcAN n) s = .next { s with a := (add8 s.a n (s.f.getLsbD 0)).1, f := (add8 s.a n (s.f.getLsbD 0)).2.toByte, tacts := s.tacts + 7 }) ∧
  (∀ (xy : IndexReg) (p : Half) (s : State), exec (.adcAP xy p) s = .next { s with a := (add8 s.a (s.half xy p) (s.f.getLsbD 0)).1, f := (add8 s.a (s.half xy p) (s.f.getLsbD 0)).2.toByte, tacts := s.tacts + 8 }) ∧
  (∀ (r : Reg8) (s : State), exec (.subR r) s = .next { s with a := (sub8 s.a (s.reg8 r) false).1, f := (sub8 s.a (s.reg8 r) false).2.toByte, tacts := s.tacts + 4 }) ∧
  (∀ (n : Byte) (s : State), exec (.subN n) s = .next { s with a := (sub8 s.a n false).1, f := (sub8 s.a n false).2.toByte, tacts := s.tacts + 7 }) ∧
  (∀ (xy : IndexReg) (p : Half) (s : State), exec (.subP xy p) s = .next { s with a := (sub8 s.a (s.half xy p) false).1, f := (sub8 s.a (s.half xy p) false).2.toByte, tacts := s.tacts + 8 }) ∧
  (∀ (r : Reg8) (s : State), exec (.sbcAR r) s = .next { s with a := (sub8 s.a (s.reg8 r) (s.f.getLsbD 0)).1, f := (sub8 s.a (s.reg8 r) (s.f.getLsbD 0)).2.toByte, tacts := s.tacts + 4 }) ∧
  (∀ (n : Byte) (s : State), exec (.sbcAN n) s = .next { s with a := (sub8 s.a n (s.f.getLsbD 0)).1, f := (sub8 s.a n (s.f.getLsbD 0)).2.toByte, tacts := s.tacts + 7 }) ∧
  (∀ (xy : IndexReg) (p : Half) (s : State), exec (.sbcAP xy p) s = .next { s with a := (sub8 s.a (s.half xy p) (s.f.getLsbD 0)).1, f := (sub8 s.a (s.half xy p) (s.f.getLsbD 0)).2.toByte, tacts := s.tacts + 8 }) ∧
  (∀ (r : Reg8) (s : State), exec (.andR r) s = .next { s with a := s.a &&& (s.reg8 r), f := (logic8 true (s.a &&& (s.reg8 r))).toByte, tacts := s.tacts + 4 }) ∧
  (∀ (n : Byte) (s : State), exec (.andN n) s = .next { s with a := s.a &&& n, f := (logic8 true (s.a &&& n)).toByte, tacts := s.tacts + 7 }) ∧
  (∀ (xy : IndexReg) (p : Half) (s : State), exec (.andP xy p) s = .next { s with a := s.a &&& (s.half xy p), f := (logic8 true (s.a &&& (s.half xy p))).toByte, tacts := s.tacts + 8 }) ∧
  (∀ (r : Reg8) (s : State), exec (.xorR r) s = .next { s with a := s.a ^^^ (s.reg8 r), f := (logic8 false (s.a ^^^ (s.reg8 r))).toByte, tacts := s.tacts + 4 }) ∧
  (∀ (n : Byte) (s : State), exec (.xorN n) s = .next { s with a := s.a ^^^ n, f := (logic8 false (s.a ^^^ n)).toByte, tacts := s.tacts + 7 }) ∧
  (∀ (xy : IndexReg) (p : Half) (s : State), exec (.xorP xy p) s = .next { s with a := s.a ^^^ (s.half xy p), f := (logic8 false (s.a ^^^ (s.half xy p))).toByte, tacts := s.tacts + 8 }) ∧
  (∀ (r : Reg8) (s : State), exec (.orR r) s = .next { s with a := s.a ||| (s.reg8 r), f := (logic8 false (s.a ||| (s.reg8 r))).toByte, tacts := s.tacts + 4 }) ∧
  (∀ (n : Byte) (s : State), exec (.orN n) s = .next { s with a := s.a ||| n, f := (logic8 false (s.a ||| n)).toByte, tacts := s.tacts + 7 }) ∧
  (∀ (xy : IndexReg) (p : Half) (s : State), exec (.orP xy p) s = .next { s with a := s.a ||| (s.half xy p), f := (logic8 false (s.a ||| (s.half xy p))).toByte, tacts := s.tacts + 8 }) ∧
  (∀ (r : Reg8) (s : State), exec (.cpR r) s = .next { s with f := (cp8 s.a (s.reg8 r)).toByte, tacts := s.tacts + 4 }) ∧
  (∀ (n : Byte) (s : State), exec (.cpN n) s = .next { s with f := (cp8 s.a n).toByte, tacts := s.tacts + 7 }) ∧
  (∀ (xy : IndexReg) (p : Half) (s : State), exec (.cpP xy p) s = .next { s with f := (cp8 s.a (s.half xy p)).toByte, tacts := s.tacts + 8 })

/-- The eight operations on A with a byte of memory, read once and never written. Derived: 43_alu8.md R226, R232, R233, R237, R238, R242, R243, R247, R248, R252, R253, R257, R258, R262, R263, R267, R268 (memory forms). -/
def Obligations.AluMemory : Prop :=
  (∀ (s : State), exec .addAMemHl s = .next { s with a := (add8 s.a (s.peek s.hl) false).1, f := (add8 s.a (s.peek s.hl) false).2.toByte, bus := .readByte s.hl (s.peek s.hl) :: s.bus, tacts := s.tacts + 7 }) ∧
  (∀ (d : Byte) (s : State), exec (.addAMemIx d) s = .next { s with a := (add8 s.a (s.peek (s.indexAddr .ix d)) false).1, f := (add8 s.a (s.peek (s.indexAddr .ix d)) false).2.toByte, wz := (s.indexAddr .ix d), bus := .readByte (s.indexAddr .ix d) (s.peek (s.indexAddr .ix d)) :: s.bus, tacts := s.tacts + 19 }) ∧
  (∀ (d : Byte) (s : State), exec (.addAMemIy d) s = .next { s with a := (add8 s.a (s.peek (s.indexAddr .iy d)) false).1, f := (add8 s.a (s.peek (s.indexAddr .iy d)) false).2.toByte, wz := (s.indexAddr .iy d), bus := .readByte (s.indexAddr .iy d) (s.peek (s.indexAddr .iy d)) :: s.bus, tacts := s.tacts + 19 }) ∧
  (∀ (s : State), exec .adcAMemHl s = .next { s with a := (add8 s.a (s.peek s.hl) (s.f.getLsbD 0)).1, f := (add8 s.a (s.peek s.hl) (s.f.getLsbD 0)).2.toByte, bus := .readByte s.hl (s.peek s.hl) :: s.bus, tacts := s.tacts + 7 }) ∧
  (∀ (d : Byte) (s : State), exec (.adcAMemIx d) s = .next { s with a := (add8 s.a (s.peek (s.indexAddr .ix d)) (s.f.getLsbD 0)).1, f := (add8 s.a (s.peek (s.indexAddr .ix d)) (s.f.getLsbD 0)).2.toByte, wz := (s.indexAddr .ix d), bus := .readByte (s.indexAddr .ix d) (s.peek (s.indexAddr .ix d)) :: s.bus, tacts := s.tacts + 19 }) ∧
  (∀ (d : Byte) (s : State), exec (.adcAMemIy d) s = .next { s with a := (add8 s.a (s.peek (s.indexAddr .iy d)) (s.f.getLsbD 0)).1, f := (add8 s.a (s.peek (s.indexAddr .iy d)) (s.f.getLsbD 0)).2.toByte, wz := (s.indexAddr .iy d), bus := .readByte (s.indexAddr .iy d) (s.peek (s.indexAddr .iy d)) :: s.bus, tacts := s.tacts + 19 }) ∧
  (∀ (s : State), exec .subMemHl s = .next { s with a := (sub8 s.a (s.peek s.hl) false).1, f := (sub8 s.a (s.peek s.hl) false).2.toByte, bus := .readByte s.hl (s.peek s.hl) :: s.bus, tacts := s.tacts + 7 }) ∧
  (∀ (d : Byte) (s : State), exec (.subMemIx d) s = .next { s with a := (sub8 s.a (s.peek (s.indexAddr .ix d)) false).1, f := (sub8 s.a (s.peek (s.indexAddr .ix d)) false).2.toByte, wz := (s.indexAddr .ix d), bus := .readByte (s.indexAddr .ix d) (s.peek (s.indexAddr .ix d)) :: s.bus, tacts := s.tacts + 19 }) ∧
  (∀ (d : Byte) (s : State), exec (.subMemIy d) s = .next { s with a := (sub8 s.a (s.peek (s.indexAddr .iy d)) false).1, f := (sub8 s.a (s.peek (s.indexAddr .iy d)) false).2.toByte, wz := (s.indexAddr .iy d), bus := .readByte (s.indexAddr .iy d) (s.peek (s.indexAddr .iy d)) :: s.bus, tacts := s.tacts + 19 }) ∧
  (∀ (s : State), exec .sbcAMemHl s = .next { s with a := (sub8 s.a (s.peek s.hl) (s.f.getLsbD 0)).1, f := (sub8 s.a (s.peek s.hl) (s.f.getLsbD 0)).2.toByte, bus := .readByte s.hl (s.peek s.hl) :: s.bus, tacts := s.tacts + 7 }) ∧
  (∀ (d : Byte) (s : State), exec (.sbcAMemIx d) s = .next { s with a := (sub8 s.a (s.peek (s.indexAddr .ix d)) (s.f.getLsbD 0)).1, f := (sub8 s.a (s.peek (s.indexAddr .ix d)) (s.f.getLsbD 0)).2.toByte, wz := (s.indexAddr .ix d), bus := .readByte (s.indexAddr .ix d) (s.peek (s.indexAddr .ix d)) :: s.bus, tacts := s.tacts + 19 }) ∧
  (∀ (d : Byte) (s : State), exec (.sbcAMemIy d) s = .next { s with a := (sub8 s.a (s.peek (s.indexAddr .iy d)) (s.f.getLsbD 0)).1, f := (sub8 s.a (s.peek (s.indexAddr .iy d)) (s.f.getLsbD 0)).2.toByte, wz := (s.indexAddr .iy d), bus := .readByte (s.indexAddr .iy d) (s.peek (s.indexAddr .iy d)) :: s.bus, tacts := s.tacts + 19 }) ∧
  (∀ (s : State), exec .andMemHl s = .next { s with a := s.a &&& (s.peek s.hl), f := (logic8 true (s.a &&& (s.peek s.hl))).toByte, bus := .readByte s.hl (s.peek s.hl) :: s.bus, tacts := s.tacts + 7 }) ∧
  (∀ (d : Byte) (s : State), exec (.andMemIx d) s = .next { s with a := s.a &&& (s.peek (s.indexAddr .ix d)), f := (logic8 true (s.a &&& (s.peek (s.indexAddr .ix d)))).toByte, wz := (s.indexAddr .ix d), bus := .readByte (s.indexAddr .ix d) (s.peek (s.indexAddr .ix d)) :: s.bus, tacts := s.tacts + 19 }) ∧
  (∀ (d : Byte) (s : State), exec (.andMemIy d) s = .next { s with a := s.a &&& (s.peek (s.indexAddr .iy d)), f := (logic8 true (s.a &&& (s.peek (s.indexAddr .iy d)))).toByte, wz := (s.indexAddr .iy d), bus := .readByte (s.indexAddr .iy d) (s.peek (s.indexAddr .iy d)) :: s.bus, tacts := s.tacts + 19 }) ∧
  (∀ (s : State), exec .xorMemHl s = .next { s with a := s.a ^^^ (s.peek s.hl), f := (logic8 false (s.a ^^^ (s.peek s.hl))).toByte, bus := .readByte s.hl (s.peek s.hl) :: s.bus, tacts := s.tacts + 7 }) ∧
  (∀ (d : Byte) (s : State), exec (.xorMemIx d) s = .next { s with a := s.a ^^^ (s.peek (s.indexAddr .ix d)), f := (logic8 false (s.a ^^^ (s.peek (s.indexAddr .ix d)))).toByte, wz := (s.indexAddr .ix d), bus := .readByte (s.indexAddr .ix d) (s.peek (s.indexAddr .ix d)) :: s.bus, tacts := s.tacts + 19 }) ∧
  (∀ (d : Byte) (s : State), exec (.xorMemIy d) s = .next { s with a := s.a ^^^ (s.peek (s.indexAddr .iy d)), f := (logic8 false (s.a ^^^ (s.peek (s.indexAddr .iy d)))).toByte, wz := (s.indexAddr .iy d), bus := .readByte (s.indexAddr .iy d) (s.peek (s.indexAddr .iy d)) :: s.bus, tacts := s.tacts + 19 }) ∧
  (∀ (s : State), exec .orMemHl s = .next { s with a := s.a ||| (s.peek s.hl), f := (logic8 false (s.a ||| (s.peek s.hl))).toByte, bus := .readByte s.hl (s.peek s.hl) :: s.bus, tacts := s.tacts + 7 }) ∧
  (∀ (d : Byte) (s : State), exec (.orMemIx d) s = .next { s with a := s.a ||| (s.peek (s.indexAddr .ix d)), f := (logic8 false (s.a ||| (s.peek (s.indexAddr .ix d)))).toByte, wz := (s.indexAddr .ix d), bus := .readByte (s.indexAddr .ix d) (s.peek (s.indexAddr .ix d)) :: s.bus, tacts := s.tacts + 19 }) ∧
  (∀ (d : Byte) (s : State), exec (.orMemIy d) s = .next { s with a := s.a ||| (s.peek (s.indexAddr .iy d)), f := (logic8 false (s.a ||| (s.peek (s.indexAddr .iy d)))).toByte, wz := (s.indexAddr .iy d), bus := .readByte (s.indexAddr .iy d) (s.peek (s.indexAddr .iy d)) :: s.bus, tacts := s.tacts + 19 }) ∧
  (∀ (s : State), exec .cpMemHl s = .next { s with f := (cp8 s.a (s.peek s.hl)).toByte, bus := .readByte s.hl (s.peek s.hl) :: s.bus, tacts := s.tacts + 7 }) ∧
  (∀ (d : Byte) (s : State), exec (.cpMemIx d) s = .next { s with f := (cp8 s.a (s.peek (s.indexAddr .ix d))).toByte, wz := (s.indexAddr .ix d), bus := .readByte (s.indexAddr .ix d) (s.peek (s.indexAddr .ix d)) :: s.bus, tacts := s.tacts + 19 }) ∧
  (∀ (d : Byte) (s : State), exec (.cpMemIy d) s = .next { s with f := (cp8 s.a (s.peek (s.indexAddr .iy d))).toByte, wz := (s.indexAddr .iy d), bus := .readByte (s.indexAddr .iy d) (s.peek (s.indexAddr .iy d)) :: s.bus, tacts := s.tacts + 19 })

/-- INC and DEC of a register, a half or a byte of memory. Derived: 43_alu8.md R270 to R277 (operation, flags, WZ, time); 20_memory.md R76. -/
def Obligations.IncDec8 : Prop :=
  (∀ (r : Reg8) (s : State), exec (.incR r) s = .next (({ s with f := (inc8 (s.reg8 r) s.flags).2.toByte, tacts := s.tacts + 4 } : State).setReg8 r (inc8 (s.reg8 r) s.flags).1)) ∧
  (∀ (xy : IndexReg) (p : Half) (s : State), exec (.incP xy p) s = .next (({ s with f := (inc8 (s.half xy p) s.flags).2.toByte, tacts := s.tacts + 8 } : State).setHalf xy p (inc8 (s.half xy p) s.flags).1)) ∧
  (∀ (s : State), exec .incMemHl s = .next { s with f := (inc8 (s.peek s.hl) s.flags).2.toByte, mem := s.mem.store s.memMap s.hl (inc8 (s.peek s.hl) s.flags).1, bus := .writeByte s.hl (inc8 (s.peek s.hl) s.flags).1 :: .readByte s.hl (s.peek s.hl) :: s.bus, tacts := s.tacts + 11 }) ∧
  (∀ (d : Byte) (s : State), exec (.incMemIx d) s = .next { s with f := (inc8 (s.peek (s.indexAddr .ix d)) s.flags).2.toByte, mem := s.mem.store s.memMap (s.indexAddr .ix d) (inc8 (s.peek (s.indexAddr .ix d)) s.flags).1, bus := .writeByte (s.indexAddr .ix d) (inc8 (s.peek (s.indexAddr .ix d)) s.flags).1 :: .readByte (s.indexAddr .ix d) (s.peek (s.indexAddr .ix d)) :: s.bus, wz := (s.indexAddr .ix d), tacts := s.tacts + 23 }) ∧
  (∀ (d : Byte) (s : State), exec (.incMemIy d) s = .next { s with f := (inc8 (s.peek (s.indexAddr .iy d)) s.flags).2.toByte, mem := s.mem.store s.memMap (s.indexAddr .iy d) (inc8 (s.peek (s.indexAddr .iy d)) s.flags).1, bus := .writeByte (s.indexAddr .iy d) (inc8 (s.peek (s.indexAddr .iy d)) s.flags).1 :: .readByte (s.indexAddr .iy d) (s.peek (s.indexAddr .iy d)) :: s.bus, wz := (s.indexAddr .iy d), tacts := s.tacts + 23 }) ∧
  (∀ (r : Reg8) (s : State), exec (.decR r) s = .next (({ s with f := (dec8 (s.reg8 r) s.flags).2.toByte, tacts := s.tacts + 4 } : State).setReg8 r (dec8 (s.reg8 r) s.flags).1)) ∧
  (∀ (xy : IndexReg) (p : Half) (s : State), exec (.decP xy p) s = .next (({ s with f := (dec8 (s.half xy p) s.flags).2.toByte, tacts := s.tacts + 8 } : State).setHalf xy p (dec8 (s.half xy p) s.flags).1)) ∧
  (∀ (s : State), exec .decMemHl s = .next { s with f := (dec8 (s.peek s.hl) s.flags).2.toByte, mem := s.mem.store s.memMap s.hl (dec8 (s.peek s.hl) s.flags).1, bus := .writeByte s.hl (dec8 (s.peek s.hl) s.flags).1 :: .readByte s.hl (s.peek s.hl) :: s.bus, tacts := s.tacts + 11 }) ∧
  (∀ (d : Byte) (s : State), exec (.decMemIx d) s = .next { s with f := (dec8 (s.peek (s.indexAddr .ix d)) s.flags).2.toByte, mem := s.mem.store s.memMap (s.indexAddr .ix d) (dec8 (s.peek (s.indexAddr .ix d)) s.flags).1, bus := .writeByte (s.indexAddr .ix d) (dec8 (s.peek (s.indexAddr .ix d)) s.flags).1 :: .readByte (s.indexAddr .ix d) (s.peek (s.indexAddr .ix d)) :: s.bus, wz := (s.indexAddr .ix d), tacts := s.tacts + 23 }) ∧
  (∀ (d : Byte) (s : State), exec (.decMemIy d) s = .next { s with f := (dec8 (s.peek (s.indexAddr .iy d)) s.flags).2.toByte, mem := s.mem.store s.memMap (s.indexAddr .iy d) (dec8 (s.peek (s.indexAddr .iy d)) s.flags).1, bus := .writeByte (s.indexAddr .iy d) (dec8 (s.peek (s.indexAddr .iy d)) s.flags).1 :: .readByte (s.indexAddr .iy d) (s.peek (s.indexAddr .iy d)) :: s.bus, wz := (s.indexAddr .iy d), tacts := s.tacts + 23 })

/-- NOP, CPL, CCF, SCF, NEG, HALT, DI, EI and IM change exactly what their rules name. Derived: 44_general_control.md R291 to R296, R298 to R303 (operation, flags, time); D19 for R5 and R3 of SCF and CCF. -/
def Obligations.ControlInstructions : Prop :=
  (∀ (s : State), exec .nop s = .next { s with tacts := s.tacts + 4 }) ∧
  (∀ (op : Byte) (s : State), exec (.nopEd op) s = .next { s with tacts := s.tacts + 8 }) ∧
  (∀ (s : State), exec .cpl s = .next { s with a := ~~~s.a, f := ({ s.flags with r5 := (~~~s.a).getLsbD 5, h := true, r3 := (~~~s.a).getLsbD 3, n := true } : Flags).toByte, tacts := s.tacts + 4 }) ∧
  (∀ (s : State), exec .ccf s = .next { s with f := ({ s.flags with r5 := s.a.getLsbD 5, h := s.flags.c, r3 := s.a.getLsbD 3, n := false, c := !s.flags.c } : Flags).toByte, tacts := s.tacts + 4 }) ∧
  (∀ (s : State), exec .scf s = .next { s with f := ({ s.flags with r5 := s.a.getLsbD 5, h := false, r3 := s.a.getLsbD 3, n := false, c := true } : Flags).toByte, tacts := s.tacts + 4 }) ∧
  (∀ (y : Fin 8) (s : State), exec (.neg y) s = .next { s with a := (sub8 0 s.a false).1, f := (sub8 0 s.a false).2.toByte, tacts := s.tacts + 8 }) ∧
  (∀ (s : State), exec .halt s = .next { s with halted := true, tacts := s.tacts + 4 }) ∧
  (∀ (s : State), exec .di s = .next { s with iff1 := false, iff2 := false, tacts := s.tacts + 4 }) ∧
  (∀ (s : State), exec .ei s = .next { s with iff1 := true, iff2 := true, eiDelay := true, tacts := s.tacts + 4 }) ∧
  (∀ (x5 : Bool) (x3 : Bool) (s : State), exec (.im0 x5 x3) s = .next { s with im := .im0, tacts := s.tacts + 8 }) ∧
  (∀ (x5 : Bool) (s : State), exec (.im1 x5) s = .next { s with im := .im1, tacts := s.tacts + 8 }) ∧
  (∀ (x5 : Bool) (s : State), exec (.im2 x5) s = .next { s with im := .im2, tacts := s.tacts + 8 })

/-- DAA: the correction, its flags, and the decimal sum and difference it makes. Derived: 44_general_control.md R290 (operation, flags, time); 90_conflicts.md C4; 95_test_vectors.md S8. -/
def Obligations.DecimalAdjust : Prop :=
  (∀ s : State,
    let low := s.a.toNat % 16
    let corr := (if s.flags.h = true ∨ low > 9 then 0x06 else 0) + (if s.flags.c = true ∨ s.a.toNat > 0x99 then 0x60 else 0)
    let res : Byte := BitVec.ofNat 8 (if s.flags.n = true then s.a.toNat + 256 - corr else s.a.toNat + corr)
    exec .daa s = .next { s with
      a := res, tacts := s.tacts + 4,
      f := ({ s := res.getLsbD 7, z := res == 0, r5 := res.getLsbD 5,
              h := if s.flags.n = true then s.flags.h && decide (low < 6) else decide (low > 9),
              r3 := res.getLsbD 3, pv := parity res, n := s.flags.n, c := s.flags.c || decide (s.a.toNat > 0x99) } : Flags).toByte }) ∧
  (∀ (x y : Fin 100) (c : Bool),
    let bcd := fun n : Nat => BitVec.ofNat 8 (16 * (n / 10) + n % 10)
    let p := add8 (bcd x) (bcd y) c
    (daa8 p.1 p.2).1 = bcd ((x + y + c.toNat) % 100) ∧ ((daa8 p.1 p.2).2.c = true ↔ x.val + y.val + c.toNat > 99)) ∧
  (∀ (x y : Fin 100) (c : Bool),
    let bcd := fun n : Nat => BitVec.ofNat 8 (16 * (n / 10) + n % 10)
    let p := sub8 (bcd x) (bcd y) c
    (daa8 p.1 p.2).1 = bcd ((x.val + 100 - y.val - c.toNat) % 100) ∧ ((daa8 p.1 p.2).2.c = true ↔ x.val < y.val + c.toNat))

/-- 16-bit ADD, ADC, SBC, INC and DEC as exact sums and differences with their flags. Derived: 45_alu16.md R310 to R317 (operation, flags, WZ, events, time). -/
def Obligations.Arithmetic16 : Prop :=
  (∀ (ss : RegPair) (s : State), let a := s.hl; let b := s.pair ss; let sum := a.toNat + b.toNat; let res : Word := BitVec.ofNat 16 sum; exec (.addHlSs ss) s = .next { s with h := hi res, l := lo res, f := ({ s.flags with r5 := res.getLsbD 13, h := decide (a.toNat % 4096 + b.toNat % 4096 > 4095), r3 := res.getLsbD 11, n := false, c := decide (sum > 65535) } : Flags).toByte, wz := s.hl + 1, tacts := s.tacts + 11 }) ∧
  (∀ (ss : RegPair) (s : State), let a := s.hl; let b := s.pair ss; let c := s.flags.c.toNat; let sum := a.toNat + b.toNat + c; let res : Word := BitVec.ofNat 16 sum; exec (.adcHlSs ss) s = .next { s with h := hi res, l := lo res, f := ({ s := res.getLsbD 15, z := res == 0, r5 := res.getLsbD 13, h := decide (a.toNat % 4096 + b.toNat % 4096 + c > 4095), r3 := res.getLsbD 11, pv := decide (a.toInt + b.toInt + c < -32768 ∨ a.toInt + b.toInt + c > 32767), n := false, c := decide (sum > 65535) } : Flags).toByte, wz := s.hl + 1, tacts := s.tacts + 15 }) ∧
  (∀ (ss : RegPair) (s : State), let a := s.hl; let b := s.pair ss; let c := s.flags.c.toNat; let diff : Int := a.toNat - b.toNat - c; let res : Word := BitVec.ofInt 16 diff; exec (.sbcHlSs ss) s = .next { s with h := hi res, l := lo res, f := ({ s := res.getLsbD 15, z := res == 0, r5 := res.getLsbD 13, h := decide (((a.toNat % 4096 : Nat) : Int) - (b.toNat % 4096 : Nat) - c < 0), r3 := res.getLsbD 11, pv := decide (a.toInt - b.toInt - c < -32768 ∨ a.toInt - b.toInt - c > 32767), n := true, c := decide (diff < 0) } : Flags).toByte, wz := s.hl + 1, tacts := s.tacts + 15 }) ∧
  (∀ (pp : IndexPair) (s : State), let a := s.ix; let b := s.indexPair .ix pp; let sum := a.toNat + b.toNat; let res : Word := BitVec.ofNat 16 sum; exec (.addIxPp pp) s = .next { s with ix := res, f := ({ s.flags with r5 := res.getLsbD 13, h := decide (a.toNat % 4096 + b.toNat % 4096 > 4095), r3 := res.getLsbD 11, n := false, c := decide (sum > 65535) } : Flags).toByte, wz := s.ix + 1, tacts := s.tacts + 15 }) ∧
  (∀ (pp : IndexPair) (s : State), let a := s.iy; let b := s.indexPair .iy pp; let sum := a.toNat + b.toNat; let res : Word := BitVec.ofNat 16 sum; exec (.addIyPp pp) s = .next { s with iy := res, f := ({ s.flags with r5 := res.getLsbD 13, h := decide (a.toNat % 4096 + b.toNat % 4096 > 4095), r3 := res.getLsbD 11, n := false, c := decide (sum > 65535) } : Flags).toByte, wz := s.iy + 1, tacts := s.tacts + 15 }) ∧
  (∀ (ss : RegPair) (s : State), exec (.incSs ss) s = .next (({ s with stackLog := if ss = .sp then s.stackLogWithSp (.incSs ss) (s.pair ss + 1) else s.stackLog, tacts := s.tacts + 6 } : State).setPair ss (s.pair ss + 1))) ∧
  (∀ (ss : RegPair) (s : State), exec (.decSs ss) s = .next (({ s with stackLog := if ss = .sp then s.stackLogWithSp (.decSs ss) (s.pair ss - 1) else s.stackLog, tacts := s.tacts + 6 } : State).setPair ss (s.pair ss - 1))) ∧
  (∀ (s : State), exec .incIx s = .next { s with ix := s.ix + 1, tacts := s.tacts + 10 }) ∧
  (∀ (s : State), exec .incIy s = .next { s with iy := s.iy + 1, tacts := s.tacts + 10 }) ∧
  (∀ (s : State), exec .decIx s = .next { s with ix := s.ix - 1, tacts := s.tacts + 10 }) ∧
  (∀ (s : State), exec .decIy s = .next { s with iy := s.iy - 1, tacts := s.tacts + 10 })

/-- The CB, DDCB and FDCB rotates and shifts on registers and memory, with the register copy. Derived: 46_rotate_shift.md R335 to R358 (operation, flags, WZ, time). -/
def Obligations.Rotates : Prop :=
  (∀ (r : Reg8) (s : State), exec (.rlcR r) s = .next (({ s with f := (rot .rlc (s.reg8 r) (s.f.getLsbD 0)).2.toByte, tacts := s.tacts + 8 } : State).setReg8 r (rot .rlc (s.reg8 r) (s.f.getLsbD 0)).1)) ∧
  (∀ (s : State), exec .rlcMemHl s = .next { s with f := (rot .rlc (s.peek s.hl) (s.f.getLsbD 0)).2.toByte, mem := s.mem.store s.memMap s.hl (rot .rlc (s.peek s.hl) (s.f.getLsbD 0)).1, bus := .writeByte s.hl (rot .rlc (s.peek s.hl) (s.f.getLsbD 0)).1 :: .readByte s.hl (s.peek s.hl) :: s.bus, tacts := s.tacts + 15 }) ∧
  (∀ (d : Byte) (s : State), exec (.rlcMemIx d) s = .next { s with f := (rot .rlc (s.peek (s.indexAddr .ix d)) (s.f.getLsbD 0)).2.toByte, mem := s.mem.store s.memMap (s.indexAddr .ix d) (rot .rlc (s.peek (s.indexAddr .ix d)) (s.f.getLsbD 0)).1, bus := .writeByte (s.indexAddr .ix d) (rot .rlc (s.peek (s.indexAddr .ix d)) (s.f.getLsbD 0)).1 :: .readByte (s.indexAddr .ix d) (s.peek (s.indexAddr .ix d)) :: s.bus, wz := (s.indexAddr .ix d), tacts := s.tacts + 23 }) ∧
  (∀ (d : Byte) (r : Reg8) (s : State), exec (.rlcMemIxR d r) s = .next (({ s with f := (rot .rlc (s.peek (s.indexAddr .ix d)) (s.f.getLsbD 0)).2.toByte, mem := s.mem.store s.memMap (s.indexAddr .ix d) (rot .rlc (s.peek (s.indexAddr .ix d)) (s.f.getLsbD 0)).1, bus := .writeByte (s.indexAddr .ix d) (rot .rlc (s.peek (s.indexAddr .ix d)) (s.f.getLsbD 0)).1 :: .readByte (s.indexAddr .ix d) (s.peek (s.indexAddr .ix d)) :: s.bus, wz := (s.indexAddr .ix d), tacts := s.tacts + 23 } : State).setReg8 r (rot .rlc (s.peek (s.indexAddr .ix d)) (s.f.getLsbD 0)).1)) ∧
  (∀ (d : Byte) (s : State), exec (.rlcMemIy d) s = .next { s with f := (rot .rlc (s.peek (s.indexAddr .iy d)) (s.f.getLsbD 0)).2.toByte, mem := s.mem.store s.memMap (s.indexAddr .iy d) (rot .rlc (s.peek (s.indexAddr .iy d)) (s.f.getLsbD 0)).1, bus := .writeByte (s.indexAddr .iy d) (rot .rlc (s.peek (s.indexAddr .iy d)) (s.f.getLsbD 0)).1 :: .readByte (s.indexAddr .iy d) (s.peek (s.indexAddr .iy d)) :: s.bus, wz := (s.indexAddr .iy d), tacts := s.tacts + 23 }) ∧
  (∀ (d : Byte) (r : Reg8) (s : State), exec (.rlcMemIyR d r) s = .next (({ s with f := (rot .rlc (s.peek (s.indexAddr .iy d)) (s.f.getLsbD 0)).2.toByte, mem := s.mem.store s.memMap (s.indexAddr .iy d) (rot .rlc (s.peek (s.indexAddr .iy d)) (s.f.getLsbD 0)).1, bus := .writeByte (s.indexAddr .iy d) (rot .rlc (s.peek (s.indexAddr .iy d)) (s.f.getLsbD 0)).1 :: .readByte (s.indexAddr .iy d) (s.peek (s.indexAddr .iy d)) :: s.bus, wz := (s.indexAddr .iy d), tacts := s.tacts + 23 } : State).setReg8 r (rot .rlc (s.peek (s.indexAddr .iy d)) (s.f.getLsbD 0)).1)) ∧
  (∀ (r : Reg8) (s : State), exec (.rrcR r) s = .next (({ s with f := (rot .rrc (s.reg8 r) (s.f.getLsbD 0)).2.toByte, tacts := s.tacts + 8 } : State).setReg8 r (rot .rrc (s.reg8 r) (s.f.getLsbD 0)).1)) ∧
  (∀ (s : State), exec .rrcMemHl s = .next { s with f := (rot .rrc (s.peek s.hl) (s.f.getLsbD 0)).2.toByte, mem := s.mem.store s.memMap s.hl (rot .rrc (s.peek s.hl) (s.f.getLsbD 0)).1, bus := .writeByte s.hl (rot .rrc (s.peek s.hl) (s.f.getLsbD 0)).1 :: .readByte s.hl (s.peek s.hl) :: s.bus, tacts := s.tacts + 15 }) ∧
  (∀ (d : Byte) (s : State), exec (.rrcMemIx d) s = .next { s with f := (rot .rrc (s.peek (s.indexAddr .ix d)) (s.f.getLsbD 0)).2.toByte, mem := s.mem.store s.memMap (s.indexAddr .ix d) (rot .rrc (s.peek (s.indexAddr .ix d)) (s.f.getLsbD 0)).1, bus := .writeByte (s.indexAddr .ix d) (rot .rrc (s.peek (s.indexAddr .ix d)) (s.f.getLsbD 0)).1 :: .readByte (s.indexAddr .ix d) (s.peek (s.indexAddr .ix d)) :: s.bus, wz := (s.indexAddr .ix d), tacts := s.tacts + 23 }) ∧
  (∀ (d : Byte) (r : Reg8) (s : State), exec (.rrcMemIxR d r) s = .next (({ s with f := (rot .rrc (s.peek (s.indexAddr .ix d)) (s.f.getLsbD 0)).2.toByte, mem := s.mem.store s.memMap (s.indexAddr .ix d) (rot .rrc (s.peek (s.indexAddr .ix d)) (s.f.getLsbD 0)).1, bus := .writeByte (s.indexAddr .ix d) (rot .rrc (s.peek (s.indexAddr .ix d)) (s.f.getLsbD 0)).1 :: .readByte (s.indexAddr .ix d) (s.peek (s.indexAddr .ix d)) :: s.bus, wz := (s.indexAddr .ix d), tacts := s.tacts + 23 } : State).setReg8 r (rot .rrc (s.peek (s.indexAddr .ix d)) (s.f.getLsbD 0)).1)) ∧
  (∀ (d : Byte) (s : State), exec (.rrcMemIy d) s = .next { s with f := (rot .rrc (s.peek (s.indexAddr .iy d)) (s.f.getLsbD 0)).2.toByte, mem := s.mem.store s.memMap (s.indexAddr .iy d) (rot .rrc (s.peek (s.indexAddr .iy d)) (s.f.getLsbD 0)).1, bus := .writeByte (s.indexAddr .iy d) (rot .rrc (s.peek (s.indexAddr .iy d)) (s.f.getLsbD 0)).1 :: .readByte (s.indexAddr .iy d) (s.peek (s.indexAddr .iy d)) :: s.bus, wz := (s.indexAddr .iy d), tacts := s.tacts + 23 }) ∧
  (∀ (d : Byte) (r : Reg8) (s : State), exec (.rrcMemIyR d r) s = .next (({ s with f := (rot .rrc (s.peek (s.indexAddr .iy d)) (s.f.getLsbD 0)).2.toByte, mem := s.mem.store s.memMap (s.indexAddr .iy d) (rot .rrc (s.peek (s.indexAddr .iy d)) (s.f.getLsbD 0)).1, bus := .writeByte (s.indexAddr .iy d) (rot .rrc (s.peek (s.indexAddr .iy d)) (s.f.getLsbD 0)).1 :: .readByte (s.indexAddr .iy d) (s.peek (s.indexAddr .iy d)) :: s.bus, wz := (s.indexAddr .iy d), tacts := s.tacts + 23 } : State).setReg8 r (rot .rrc (s.peek (s.indexAddr .iy d)) (s.f.getLsbD 0)).1)) ∧
  (∀ (r : Reg8) (s : State), exec (.rlR r) s = .next (({ s with f := (rot .rl (s.reg8 r) (s.f.getLsbD 0)).2.toByte, tacts := s.tacts + 8 } : State).setReg8 r (rot .rl (s.reg8 r) (s.f.getLsbD 0)).1)) ∧
  (∀ (s : State), exec .rlMemHl s = .next { s with f := (rot .rl (s.peek s.hl) (s.f.getLsbD 0)).2.toByte, mem := s.mem.store s.memMap s.hl (rot .rl (s.peek s.hl) (s.f.getLsbD 0)).1, bus := .writeByte s.hl (rot .rl (s.peek s.hl) (s.f.getLsbD 0)).1 :: .readByte s.hl (s.peek s.hl) :: s.bus, tacts := s.tacts + 15 }) ∧
  (∀ (d : Byte) (s : State), exec (.rlMemIx d) s = .next { s with f := (rot .rl (s.peek (s.indexAddr .ix d)) (s.f.getLsbD 0)).2.toByte, mem := s.mem.store s.memMap (s.indexAddr .ix d) (rot .rl (s.peek (s.indexAddr .ix d)) (s.f.getLsbD 0)).1, bus := .writeByte (s.indexAddr .ix d) (rot .rl (s.peek (s.indexAddr .ix d)) (s.f.getLsbD 0)).1 :: .readByte (s.indexAddr .ix d) (s.peek (s.indexAddr .ix d)) :: s.bus, wz := (s.indexAddr .ix d), tacts := s.tacts + 23 }) ∧
  (∀ (d : Byte) (r : Reg8) (s : State), exec (.rlMemIxR d r) s = .next (({ s with f := (rot .rl (s.peek (s.indexAddr .ix d)) (s.f.getLsbD 0)).2.toByte, mem := s.mem.store s.memMap (s.indexAddr .ix d) (rot .rl (s.peek (s.indexAddr .ix d)) (s.f.getLsbD 0)).1, bus := .writeByte (s.indexAddr .ix d) (rot .rl (s.peek (s.indexAddr .ix d)) (s.f.getLsbD 0)).1 :: .readByte (s.indexAddr .ix d) (s.peek (s.indexAddr .ix d)) :: s.bus, wz := (s.indexAddr .ix d), tacts := s.tacts + 23 } : State).setReg8 r (rot .rl (s.peek (s.indexAddr .ix d)) (s.f.getLsbD 0)).1)) ∧
  (∀ (d : Byte) (s : State), exec (.rlMemIy d) s = .next { s with f := (rot .rl (s.peek (s.indexAddr .iy d)) (s.f.getLsbD 0)).2.toByte, mem := s.mem.store s.memMap (s.indexAddr .iy d) (rot .rl (s.peek (s.indexAddr .iy d)) (s.f.getLsbD 0)).1, bus := .writeByte (s.indexAddr .iy d) (rot .rl (s.peek (s.indexAddr .iy d)) (s.f.getLsbD 0)).1 :: .readByte (s.indexAddr .iy d) (s.peek (s.indexAddr .iy d)) :: s.bus, wz := (s.indexAddr .iy d), tacts := s.tacts + 23 }) ∧
  (∀ (d : Byte) (r : Reg8) (s : State), exec (.rlMemIyR d r) s = .next (({ s with f := (rot .rl (s.peek (s.indexAddr .iy d)) (s.f.getLsbD 0)).2.toByte, mem := s.mem.store s.memMap (s.indexAddr .iy d) (rot .rl (s.peek (s.indexAddr .iy d)) (s.f.getLsbD 0)).1, bus := .writeByte (s.indexAddr .iy d) (rot .rl (s.peek (s.indexAddr .iy d)) (s.f.getLsbD 0)).1 :: .readByte (s.indexAddr .iy d) (s.peek (s.indexAddr .iy d)) :: s.bus, wz := (s.indexAddr .iy d), tacts := s.tacts + 23 } : State).setReg8 r (rot .rl (s.peek (s.indexAddr .iy d)) (s.f.getLsbD 0)).1)) ∧
  (∀ (r : Reg8) (s : State), exec (.rrR r) s = .next (({ s with f := (rot .rr (s.reg8 r) (s.f.getLsbD 0)).2.toByte, tacts := s.tacts + 8 } : State).setReg8 r (rot .rr (s.reg8 r) (s.f.getLsbD 0)).1)) ∧
  (∀ (s : State), exec .rrMemHl s = .next { s with f := (rot .rr (s.peek s.hl) (s.f.getLsbD 0)).2.toByte, mem := s.mem.store s.memMap s.hl (rot .rr (s.peek s.hl) (s.f.getLsbD 0)).1, bus := .writeByte s.hl (rot .rr (s.peek s.hl) (s.f.getLsbD 0)).1 :: .readByte s.hl (s.peek s.hl) :: s.bus, tacts := s.tacts + 15 }) ∧
  (∀ (d : Byte) (s : State), exec (.rrMemIx d) s = .next { s with f := (rot .rr (s.peek (s.indexAddr .ix d)) (s.f.getLsbD 0)).2.toByte, mem := s.mem.store s.memMap (s.indexAddr .ix d) (rot .rr (s.peek (s.indexAddr .ix d)) (s.f.getLsbD 0)).1, bus := .writeByte (s.indexAddr .ix d) (rot .rr (s.peek (s.indexAddr .ix d)) (s.f.getLsbD 0)).1 :: .readByte (s.indexAddr .ix d) (s.peek (s.indexAddr .ix d)) :: s.bus, wz := (s.indexAddr .ix d), tacts := s.tacts + 23 }) ∧
  (∀ (d : Byte) (r : Reg8) (s : State), exec (.rrMemIxR d r) s = .next (({ s with f := (rot .rr (s.peek (s.indexAddr .ix d)) (s.f.getLsbD 0)).2.toByte, mem := s.mem.store s.memMap (s.indexAddr .ix d) (rot .rr (s.peek (s.indexAddr .ix d)) (s.f.getLsbD 0)).1, bus := .writeByte (s.indexAddr .ix d) (rot .rr (s.peek (s.indexAddr .ix d)) (s.f.getLsbD 0)).1 :: .readByte (s.indexAddr .ix d) (s.peek (s.indexAddr .ix d)) :: s.bus, wz := (s.indexAddr .ix d), tacts := s.tacts + 23 } : State).setReg8 r (rot .rr (s.peek (s.indexAddr .ix d)) (s.f.getLsbD 0)).1)) ∧
  (∀ (d : Byte) (s : State), exec (.rrMemIy d) s = .next { s with f := (rot .rr (s.peek (s.indexAddr .iy d)) (s.f.getLsbD 0)).2.toByte, mem := s.mem.store s.memMap (s.indexAddr .iy d) (rot .rr (s.peek (s.indexAddr .iy d)) (s.f.getLsbD 0)).1, bus := .writeByte (s.indexAddr .iy d) (rot .rr (s.peek (s.indexAddr .iy d)) (s.f.getLsbD 0)).1 :: .readByte (s.indexAddr .iy d) (s.peek (s.indexAddr .iy d)) :: s.bus, wz := (s.indexAddr .iy d), tacts := s.tacts + 23 }) ∧
  (∀ (d : Byte) (r : Reg8) (s : State), exec (.rrMemIyR d r) s = .next (({ s with f := (rot .rr (s.peek (s.indexAddr .iy d)) (s.f.getLsbD 0)).2.toByte, mem := s.mem.store s.memMap (s.indexAddr .iy d) (rot .rr (s.peek (s.indexAddr .iy d)) (s.f.getLsbD 0)).1, bus := .writeByte (s.indexAddr .iy d) (rot .rr (s.peek (s.indexAddr .iy d)) (s.f.getLsbD 0)).1 :: .readByte (s.indexAddr .iy d) (s.peek (s.indexAddr .iy d)) :: s.bus, wz := (s.indexAddr .iy d), tacts := s.tacts + 23 } : State).setReg8 r (rot .rr (s.peek (s.indexAddr .iy d)) (s.f.getLsbD 0)).1)) ∧
  (∀ (r : Reg8) (s : State), exec (.slaR r) s = .next (({ s with f := (rot .sla (s.reg8 r) (s.f.getLsbD 0)).2.toByte, tacts := s.tacts + 8 } : State).setReg8 r (rot .sla (s.reg8 r) (s.f.getLsbD 0)).1)) ∧
  (∀ (s : State), exec .slaMemHl s = .next { s with f := (rot .sla (s.peek s.hl) (s.f.getLsbD 0)).2.toByte, mem := s.mem.store s.memMap s.hl (rot .sla (s.peek s.hl) (s.f.getLsbD 0)).1, bus := .writeByte s.hl (rot .sla (s.peek s.hl) (s.f.getLsbD 0)).1 :: .readByte s.hl (s.peek s.hl) :: s.bus, tacts := s.tacts + 15 }) ∧
  (∀ (d : Byte) (s : State), exec (.slaMemIx d) s = .next { s with f := (rot .sla (s.peek (s.indexAddr .ix d)) (s.f.getLsbD 0)).2.toByte, mem := s.mem.store s.memMap (s.indexAddr .ix d) (rot .sla (s.peek (s.indexAddr .ix d)) (s.f.getLsbD 0)).1, bus := .writeByte (s.indexAddr .ix d) (rot .sla (s.peek (s.indexAddr .ix d)) (s.f.getLsbD 0)).1 :: .readByte (s.indexAddr .ix d) (s.peek (s.indexAddr .ix d)) :: s.bus, wz := (s.indexAddr .ix d), tacts := s.tacts + 23 }) ∧
  (∀ (d : Byte) (r : Reg8) (s : State), exec (.slaMemIxR d r) s = .next (({ s with f := (rot .sla (s.peek (s.indexAddr .ix d)) (s.f.getLsbD 0)).2.toByte, mem := s.mem.store s.memMap (s.indexAddr .ix d) (rot .sla (s.peek (s.indexAddr .ix d)) (s.f.getLsbD 0)).1, bus := .writeByte (s.indexAddr .ix d) (rot .sla (s.peek (s.indexAddr .ix d)) (s.f.getLsbD 0)).1 :: .readByte (s.indexAddr .ix d) (s.peek (s.indexAddr .ix d)) :: s.bus, wz := (s.indexAddr .ix d), tacts := s.tacts + 23 } : State).setReg8 r (rot .sla (s.peek (s.indexAddr .ix d)) (s.f.getLsbD 0)).1)) ∧
  (∀ (d : Byte) (s : State), exec (.slaMemIy d) s = .next { s with f := (rot .sla (s.peek (s.indexAddr .iy d)) (s.f.getLsbD 0)).2.toByte, mem := s.mem.store s.memMap (s.indexAddr .iy d) (rot .sla (s.peek (s.indexAddr .iy d)) (s.f.getLsbD 0)).1, bus := .writeByte (s.indexAddr .iy d) (rot .sla (s.peek (s.indexAddr .iy d)) (s.f.getLsbD 0)).1 :: .readByte (s.indexAddr .iy d) (s.peek (s.indexAddr .iy d)) :: s.bus, wz := (s.indexAddr .iy d), tacts := s.tacts + 23 }) ∧
  (∀ (d : Byte) (r : Reg8) (s : State), exec (.slaMemIyR d r) s = .next (({ s with f := (rot .sla (s.peek (s.indexAddr .iy d)) (s.f.getLsbD 0)).2.toByte, mem := s.mem.store s.memMap (s.indexAddr .iy d) (rot .sla (s.peek (s.indexAddr .iy d)) (s.f.getLsbD 0)).1, bus := .writeByte (s.indexAddr .iy d) (rot .sla (s.peek (s.indexAddr .iy d)) (s.f.getLsbD 0)).1 :: .readByte (s.indexAddr .iy d) (s.peek (s.indexAddr .iy d)) :: s.bus, wz := (s.indexAddr .iy d), tacts := s.tacts + 23 } : State).setReg8 r (rot .sla (s.peek (s.indexAddr .iy d)) (s.f.getLsbD 0)).1)) ∧
  (∀ (r : Reg8) (s : State), exec (.sraR r) s = .next (({ s with f := (rot .sra (s.reg8 r) (s.f.getLsbD 0)).2.toByte, tacts := s.tacts + 8 } : State).setReg8 r (rot .sra (s.reg8 r) (s.f.getLsbD 0)).1)) ∧
  (∀ (s : State), exec .sraMemHl s = .next { s with f := (rot .sra (s.peek s.hl) (s.f.getLsbD 0)).2.toByte, mem := s.mem.store s.memMap s.hl (rot .sra (s.peek s.hl) (s.f.getLsbD 0)).1, bus := .writeByte s.hl (rot .sra (s.peek s.hl) (s.f.getLsbD 0)).1 :: .readByte s.hl (s.peek s.hl) :: s.bus, tacts := s.tacts + 15 }) ∧
  (∀ (d : Byte) (s : State), exec (.sraMemIx d) s = .next { s with f := (rot .sra (s.peek (s.indexAddr .ix d)) (s.f.getLsbD 0)).2.toByte, mem := s.mem.store s.memMap (s.indexAddr .ix d) (rot .sra (s.peek (s.indexAddr .ix d)) (s.f.getLsbD 0)).1, bus := .writeByte (s.indexAddr .ix d) (rot .sra (s.peek (s.indexAddr .ix d)) (s.f.getLsbD 0)).1 :: .readByte (s.indexAddr .ix d) (s.peek (s.indexAddr .ix d)) :: s.bus, wz := (s.indexAddr .ix d), tacts := s.tacts + 23 }) ∧
  (∀ (d : Byte) (r : Reg8) (s : State), exec (.sraMemIxR d r) s = .next (({ s with f := (rot .sra (s.peek (s.indexAddr .ix d)) (s.f.getLsbD 0)).2.toByte, mem := s.mem.store s.memMap (s.indexAddr .ix d) (rot .sra (s.peek (s.indexAddr .ix d)) (s.f.getLsbD 0)).1, bus := .writeByte (s.indexAddr .ix d) (rot .sra (s.peek (s.indexAddr .ix d)) (s.f.getLsbD 0)).1 :: .readByte (s.indexAddr .ix d) (s.peek (s.indexAddr .ix d)) :: s.bus, wz := (s.indexAddr .ix d), tacts := s.tacts + 23 } : State).setReg8 r (rot .sra (s.peek (s.indexAddr .ix d)) (s.f.getLsbD 0)).1)) ∧
  (∀ (d : Byte) (s : State), exec (.sraMemIy d) s = .next { s with f := (rot .sra (s.peek (s.indexAddr .iy d)) (s.f.getLsbD 0)).2.toByte, mem := s.mem.store s.memMap (s.indexAddr .iy d) (rot .sra (s.peek (s.indexAddr .iy d)) (s.f.getLsbD 0)).1, bus := .writeByte (s.indexAddr .iy d) (rot .sra (s.peek (s.indexAddr .iy d)) (s.f.getLsbD 0)).1 :: .readByte (s.indexAddr .iy d) (s.peek (s.indexAddr .iy d)) :: s.bus, wz := (s.indexAddr .iy d), tacts := s.tacts + 23 }) ∧
  (∀ (d : Byte) (r : Reg8) (s : State), exec (.sraMemIyR d r) s = .next (({ s with f := (rot .sra (s.peek (s.indexAddr .iy d)) (s.f.getLsbD 0)).2.toByte, mem := s.mem.store s.memMap (s.indexAddr .iy d) (rot .sra (s.peek (s.indexAddr .iy d)) (s.f.getLsbD 0)).1, bus := .writeByte (s.indexAddr .iy d) (rot .sra (s.peek (s.indexAddr .iy d)) (s.f.getLsbD 0)).1 :: .readByte (s.indexAddr .iy d) (s.peek (s.indexAddr .iy d)) :: s.bus, wz := (s.indexAddr .iy d), tacts := s.tacts + 23 } : State).setReg8 r (rot .sra (s.peek (s.indexAddr .iy d)) (s.f.getLsbD 0)).1)) ∧
  (∀ (r : Reg8) (s : State), exec (.sllR r) s = .next (({ s with f := (rot .sll (s.reg8 r) (s.f.getLsbD 0)).2.toByte, tacts := s.tacts + 8 } : State).setReg8 r (rot .sll (s.reg8 r) (s.f.getLsbD 0)).1)) ∧
  (∀ (s : State), exec .sllMemHl s = .next { s with f := (rot .sll (s.peek s.hl) (s.f.getLsbD 0)).2.toByte, mem := s.mem.store s.memMap s.hl (rot .sll (s.peek s.hl) (s.f.getLsbD 0)).1, bus := .writeByte s.hl (rot .sll (s.peek s.hl) (s.f.getLsbD 0)).1 :: .readByte s.hl (s.peek s.hl) :: s.bus, tacts := s.tacts + 15 }) ∧
  (∀ (d : Byte) (s : State), exec (.sllMemIx d) s = .next { s with f := (rot .sll (s.peek (s.indexAddr .ix d)) (s.f.getLsbD 0)).2.toByte, mem := s.mem.store s.memMap (s.indexAddr .ix d) (rot .sll (s.peek (s.indexAddr .ix d)) (s.f.getLsbD 0)).1, bus := .writeByte (s.indexAddr .ix d) (rot .sll (s.peek (s.indexAddr .ix d)) (s.f.getLsbD 0)).1 :: .readByte (s.indexAddr .ix d) (s.peek (s.indexAddr .ix d)) :: s.bus, wz := (s.indexAddr .ix d), tacts := s.tacts + 23 }) ∧
  (∀ (d : Byte) (r : Reg8) (s : State), exec (.sllMemIxR d r) s = .next (({ s with f := (rot .sll (s.peek (s.indexAddr .ix d)) (s.f.getLsbD 0)).2.toByte, mem := s.mem.store s.memMap (s.indexAddr .ix d) (rot .sll (s.peek (s.indexAddr .ix d)) (s.f.getLsbD 0)).1, bus := .writeByte (s.indexAddr .ix d) (rot .sll (s.peek (s.indexAddr .ix d)) (s.f.getLsbD 0)).1 :: .readByte (s.indexAddr .ix d) (s.peek (s.indexAddr .ix d)) :: s.bus, wz := (s.indexAddr .ix d), tacts := s.tacts + 23 } : State).setReg8 r (rot .sll (s.peek (s.indexAddr .ix d)) (s.f.getLsbD 0)).1)) ∧
  (∀ (d : Byte) (s : State), exec (.sllMemIy d) s = .next { s with f := (rot .sll (s.peek (s.indexAddr .iy d)) (s.f.getLsbD 0)).2.toByte, mem := s.mem.store s.memMap (s.indexAddr .iy d) (rot .sll (s.peek (s.indexAddr .iy d)) (s.f.getLsbD 0)).1, bus := .writeByte (s.indexAddr .iy d) (rot .sll (s.peek (s.indexAddr .iy d)) (s.f.getLsbD 0)).1 :: .readByte (s.indexAddr .iy d) (s.peek (s.indexAddr .iy d)) :: s.bus, wz := (s.indexAddr .iy d), tacts := s.tacts + 23 }) ∧
  (∀ (d : Byte) (r : Reg8) (s : State), exec (.sllMemIyR d r) s = .next (({ s with f := (rot .sll (s.peek (s.indexAddr .iy d)) (s.f.getLsbD 0)).2.toByte, mem := s.mem.store s.memMap (s.indexAddr .iy d) (rot .sll (s.peek (s.indexAddr .iy d)) (s.f.getLsbD 0)).1, bus := .writeByte (s.indexAddr .iy d) (rot .sll (s.peek (s.indexAddr .iy d)) (s.f.getLsbD 0)).1 :: .readByte (s.indexAddr .iy d) (s.peek (s.indexAddr .iy d)) :: s.bus, wz := (s.indexAddr .iy d), tacts := s.tacts + 23 } : State).setReg8 r (rot .sll (s.peek (s.indexAddr .iy d)) (s.f.getLsbD 0)).1)) ∧
  (∀ (r : Reg8) (s : State), exec (.srlR r) s = .next (({ s with f := (rot .srl (s.reg8 r) (s.f.getLsbD 0)).2.toByte, tacts := s.tacts + 8 } : State).setReg8 r (rot .srl (s.reg8 r) (s.f.getLsbD 0)).1)) ∧
  (∀ (s : State), exec .srlMemHl s = .next { s with f := (rot .srl (s.peek s.hl) (s.f.getLsbD 0)).2.toByte, mem := s.mem.store s.memMap s.hl (rot .srl (s.peek s.hl) (s.f.getLsbD 0)).1, bus := .writeByte s.hl (rot .srl (s.peek s.hl) (s.f.getLsbD 0)).1 :: .readByte s.hl (s.peek s.hl) :: s.bus, tacts := s.tacts + 15 }) ∧
  (∀ (d : Byte) (s : State), exec (.srlMemIx d) s = .next { s with f := (rot .srl (s.peek (s.indexAddr .ix d)) (s.f.getLsbD 0)).2.toByte, mem := s.mem.store s.memMap (s.indexAddr .ix d) (rot .srl (s.peek (s.indexAddr .ix d)) (s.f.getLsbD 0)).1, bus := .writeByte (s.indexAddr .ix d) (rot .srl (s.peek (s.indexAddr .ix d)) (s.f.getLsbD 0)).1 :: .readByte (s.indexAddr .ix d) (s.peek (s.indexAddr .ix d)) :: s.bus, wz := (s.indexAddr .ix d), tacts := s.tacts + 23 }) ∧
  (∀ (d : Byte) (r : Reg8) (s : State), exec (.srlMemIxR d r) s = .next (({ s with f := (rot .srl (s.peek (s.indexAddr .ix d)) (s.f.getLsbD 0)).2.toByte, mem := s.mem.store s.memMap (s.indexAddr .ix d) (rot .srl (s.peek (s.indexAddr .ix d)) (s.f.getLsbD 0)).1, bus := .writeByte (s.indexAddr .ix d) (rot .srl (s.peek (s.indexAddr .ix d)) (s.f.getLsbD 0)).1 :: .readByte (s.indexAddr .ix d) (s.peek (s.indexAddr .ix d)) :: s.bus, wz := (s.indexAddr .ix d), tacts := s.tacts + 23 } : State).setReg8 r (rot .srl (s.peek (s.indexAddr .ix d)) (s.f.getLsbD 0)).1)) ∧
  (∀ (d : Byte) (s : State), exec (.srlMemIy d) s = .next { s with f := (rot .srl (s.peek (s.indexAddr .iy d)) (s.f.getLsbD 0)).2.toByte, mem := s.mem.store s.memMap (s.indexAddr .iy d) (rot .srl (s.peek (s.indexAddr .iy d)) (s.f.getLsbD 0)).1, bus := .writeByte (s.indexAddr .iy d) (rot .srl (s.peek (s.indexAddr .iy d)) (s.f.getLsbD 0)).1 :: .readByte (s.indexAddr .iy d) (s.peek (s.indexAddr .iy d)) :: s.bus, wz := (s.indexAddr .iy d), tacts := s.tacts + 23 }) ∧
  (∀ (d : Byte) (r : Reg8) (s : State), exec (.srlMemIyR d r) s = .next (({ s with f := (rot .srl (s.peek (s.indexAddr .iy d)) (s.f.getLsbD 0)).2.toByte, mem := s.mem.store s.memMap (s.indexAddr .iy d) (rot .srl (s.peek (s.indexAddr .iy d)) (s.f.getLsbD 0)).1, bus := .writeByte (s.indexAddr .iy d) (rot .srl (s.peek (s.indexAddr .iy d)) (s.f.getLsbD 0)).1 :: .readByte (s.indexAddr .iy d) (s.peek (s.indexAddr .iy d)) :: s.bus, wz := (s.indexAddr .iy d), tacts := s.tacts + 23 } : State).setReg8 r (rot .srl (s.peek (s.indexAddr .iy d)) (s.f.getLsbD 0)).1))

/-- RLCA, RRCA, RLA, RRA, RLD and RRD as numbers, with their flags. Derived: 46_rotate_shift.md R331 to R334, R360, R361 (operation, flags, WZ, time). -/
def Obligations.AccumulatorAndDigitRotates : Prop :=
  (∀ (s : State), let res : Byte := BitVec.ofNat 8 (s.a.toNat * 2 % 256 + s.a.toNat / 128); exec .rlca s = .next { s with a := res, f := ({ s.flags with r5 := res.getLsbD 5, h := false, r3 := res.getLsbD 3, n := false, c := s.a.getLsbD 7 } : Flags).toByte, tacts := s.tacts + 4 }) ∧
  (∀ (s : State), let res : Byte := BitVec.ofNat 8 (s.a.toNat / 2 + 128 * (s.a.toNat % 2)); exec .rrca s = .next { s with a := res, f := ({ s.flags with r5 := res.getLsbD 5, h := false, r3 := res.getLsbD 3, n := false, c := s.a.getLsbD 0 } : Flags).toByte, tacts := s.tacts + 4 }) ∧
  (∀ (s : State), let res : Byte := BitVec.ofNat 8 (s.a.toNat * 2 % 256 + s.flags.c.toNat); exec .rla s = .next { s with a := res, f := ({ s.flags with r5 := res.getLsbD 5, h := false, r3 := res.getLsbD 3, n := false, c := s.a.getLsbD 7 } : Flags).toByte, tacts := s.tacts + 4 }) ∧
  (∀ (s : State), let res : Byte := BitVec.ofNat 8 (s.a.toNat / 2 + 128 * s.flags.c.toNat); exec .rra s = .next { s with a := res, f := ({ s.flags with r5 := res.getLsbD 5, h := false, r3 := res.getLsbD 3, n := false, c := s.a.getLsbD 0 } : Flags).toByte, tacts := s.tacts + 4 }) ∧
  (∀ (s : State), let v := s.peek s.hl; let a : Byte := BitVec.ofNat 8 (s.a.toNat / 16 * 16 + v.toNat / 16); let w : Byte := BitVec.ofNat 8 (v.toNat % 16 * 16 + s.a.toNat % 16); exec .rld s = .next { s with a := a, f := (szpFlags a s.flags).toByte, wz := s.hl + 1, mem := s.mem.store s.memMap s.hl w, bus := .writeByte s.hl w :: .readByte s.hl v :: s.bus, tacts := s.tacts + 18 }) ∧
  (∀ (s : State), let v := s.peek s.hl; let a : Byte := BitVec.ofNat 8 (s.a.toNat / 16 * 16 + v.toNat % 16); let w : Byte := BitVec.ofNat 8 (s.a.toNat % 16 * 16 + v.toNat / 16); exec .rrd s = .next { s with a := a, f := (szpFlags a s.flags).toByte, wz := s.hl + 1, mem := s.mem.store s.memMap s.hl w, bus := .writeByte s.hl w :: .readByte s.hl v :: s.bus, tacts := s.tacts + 18 }) ∧
  (∀ (v : Byte) (old : Flags), szpFlags v old = { s := v.getLsbD 7, z := v == 0, r5 := v.getLsbD 5, h := false, r3 := v.getLsbD 3, pv := decide (((List.range 8).countP fun k => v.getLsbD k) % 2 = 0), n := false, c := old.c })

/-- BIT sets Z and PV to the complement of the bit, and R5 and R3 by the operand form. Derived: 47_bit.md R380 to R383 (operation, flags, WZ, time). -/
def Obligations.BitTests : Prop :=
  (∀ (b : Fin 8) (r : Reg8) (s : State), exec (.bitBR b r) s = .next { s with f := ({ s := b == 7 && (s.reg8 r).getLsbD b.val, z := !(s.reg8 r).getLsbD b.val, r5 := (s.reg8 r).getLsbD 5, h := true, r3 := (s.reg8 r).getLsbD 3, pv := !(s.reg8 r).getLsbD b.val, n := false, c := s.flags.c } : Flags).toByte, tacts := s.tacts + 8 }) ∧
  (∀ (b : Fin 8) (s : State), exec (.bitBMemHl b) s = .next { s with f := ({ s := b == 7 && (s.peek s.hl).getLsbD b.val, z := !(s.peek s.hl).getLsbD b.val, r5 := (hi s.wz).getLsbD 5, h := true, r3 := (hi s.wz).getLsbD 3, pv := !(s.peek s.hl).getLsbD b.val, n := false, c := s.flags.c } : Flags).toByte, bus := .readByte s.hl (s.peek s.hl) :: s.bus, tacts := s.tacts + 12 }) ∧
  (∀ (b : Fin 8) (d : Byte) (s : State), exec (.bitBMemIx b d) s = .next { s with f := ({ s := b == 7 && (s.peek (s.indexAddr .ix d)).getLsbD b.val, z := !(s.peek (s.indexAddr .ix d)).getLsbD b.val, r5 := (hi (s.indexAddr .ix d)).getLsbD 5, h := true, r3 := (hi (s.indexAddr .ix d)).getLsbD 3, pv := !(s.peek (s.indexAddr .ix d)).getLsbD b.val, n := false, c := s.flags.c } : Flags).toByte, wz := (s.indexAddr .ix d), bus := .readByte (s.indexAddr .ix d) (s.peek (s.indexAddr .ix d)) :: s.bus, tacts := s.tacts + 20 }) ∧
  (∀ (b : Fin 8) (d : Byte) (z : Reg8) (s : State), exec (.bitBMemIxZ b d z) s = .next { s with f := ({ s := b == 7 && (s.peek (s.indexAddr .ix d)).getLsbD b.val, z := !(s.peek (s.indexAddr .ix d)).getLsbD b.val, r5 := (hi (s.indexAddr .ix d)).getLsbD 5, h := true, r3 := (hi (s.indexAddr .ix d)).getLsbD 3, pv := !(s.peek (s.indexAddr .ix d)).getLsbD b.val, n := false, c := s.flags.c } : Flags).toByte, wz := (s.indexAddr .ix d), bus := .readByte (s.indexAddr .ix d) (s.peek (s.indexAddr .ix d)) :: s.bus, tacts := s.tacts + 20 }) ∧
  (∀ (b : Fin 8) (d : Byte) (s : State), exec (.bitBMemIy b d) s = .next { s with f := ({ s := b == 7 && (s.peek (s.indexAddr .iy d)).getLsbD b.val, z := !(s.peek (s.indexAddr .iy d)).getLsbD b.val, r5 := (hi (s.indexAddr .iy d)).getLsbD 5, h := true, r3 := (hi (s.indexAddr .iy d)).getLsbD 3, pv := !(s.peek (s.indexAddr .iy d)).getLsbD b.val, n := false, c := s.flags.c } : Flags).toByte, wz := (s.indexAddr .iy d), bus := .readByte (s.indexAddr .iy d) (s.peek (s.indexAddr .iy d)) :: s.bus, tacts := s.tacts + 20 }) ∧
  (∀ (b : Fin 8) (d : Byte) (z : Reg8) (s : State), exec (.bitBMemIyZ b d z) s = .next { s with f := ({ s := b == 7 && (s.peek (s.indexAddr .iy d)).getLsbD b.val, z := !(s.peek (s.indexAddr .iy d)).getLsbD b.val, r5 := (hi (s.indexAddr .iy d)).getLsbD 5, h := true, r3 := (hi (s.indexAddr .iy d)).getLsbD 3, pv := !(s.peek (s.indexAddr .iy d)).getLsbD b.val, n := false, c := s.flags.c } : Flags).toByte, wz := (s.indexAddr .iy d), bus := .readByte (s.indexAddr .iy d) (s.peek (s.indexAddr .iy d)) :: s.bus, tacts := s.tacts + 20 })

/-- SET and RES write exactly one bit and no flag, with the register copy. Derived: 47_bit.md R384 to R389 (operation, flags, WZ, time). -/
def Obligations.BitSetReset : Prop :=
  (∀ (b : Fin 8) (r : Reg8) (s : State), exec (.setBR b r) s = .next (({ s with tacts := s.tacts + 8 } : State).setReg8 r (s.reg8 r ||| ((1 : Byte) <<< b.val)))) ∧
  (∀ (b : Fin 8) (s : State), exec (.setBMemHl b) s = .next { s with mem := s.mem.store s.memMap s.hl (s.peek s.hl ||| ((1 : Byte) <<< b.val)), bus := .writeByte s.hl (s.peek s.hl ||| ((1 : Byte) <<< b.val)) :: .readByte s.hl (s.peek s.hl) :: s.bus, tacts := s.tacts + 15 }) ∧
  (∀ (b : Fin 8) (d : Byte) (s : State), exec (.setBMemIx b d) s = .next { s with mem := s.mem.store s.memMap (s.indexAddr .ix d) (s.peek (s.indexAddr .ix d) ||| ((1 : Byte) <<< b.val)), bus := .writeByte (s.indexAddr .ix d) (s.peek (s.indexAddr .ix d) ||| ((1 : Byte) <<< b.val)) :: .readByte (s.indexAddr .ix d) (s.peek (s.indexAddr .ix d)) :: s.bus, wz := (s.indexAddr .ix d), tacts := s.tacts + 23 }) ∧
  (∀ (b : Fin 8) (d : Byte) (r : Reg8) (s : State), exec (.setBMemIxR b d r) s = .next (({ s with mem := s.mem.store s.memMap (s.indexAddr .ix d) (s.peek (s.indexAddr .ix d) ||| ((1 : Byte) <<< b.val)), bus := .writeByte (s.indexAddr .ix d) (s.peek (s.indexAddr .ix d) ||| ((1 : Byte) <<< b.val)) :: .readByte (s.indexAddr .ix d) (s.peek (s.indexAddr .ix d)) :: s.bus, wz := (s.indexAddr .ix d), tacts := s.tacts + 23 } : State).setReg8 r (s.peek (s.indexAddr .ix d) ||| ((1 : Byte) <<< b.val)))) ∧
  (∀ (b : Fin 8) (d : Byte) (s : State), exec (.setBMemIy b d) s = .next { s with mem := s.mem.store s.memMap (s.indexAddr .iy d) (s.peek (s.indexAddr .iy d) ||| ((1 : Byte) <<< b.val)), bus := .writeByte (s.indexAddr .iy d) (s.peek (s.indexAddr .iy d) ||| ((1 : Byte) <<< b.val)) :: .readByte (s.indexAddr .iy d) (s.peek (s.indexAddr .iy d)) :: s.bus, wz := (s.indexAddr .iy d), tacts := s.tacts + 23 }) ∧
  (∀ (b : Fin 8) (d : Byte) (r : Reg8) (s : State), exec (.setBMemIyR b d r) s = .next (({ s with mem := s.mem.store s.memMap (s.indexAddr .iy d) (s.peek (s.indexAddr .iy d) ||| ((1 : Byte) <<< b.val)), bus := .writeByte (s.indexAddr .iy d) (s.peek (s.indexAddr .iy d) ||| ((1 : Byte) <<< b.val)) :: .readByte (s.indexAddr .iy d) (s.peek (s.indexAddr .iy d)) :: s.bus, wz := (s.indexAddr .iy d), tacts := s.tacts + 23 } : State).setReg8 r (s.peek (s.indexAddr .iy d) ||| ((1 : Byte) <<< b.val)))) ∧
  (∀ (b : Fin 8) (r : Reg8) (s : State), exec (.resBR b r) s = .next (({ s with tacts := s.tacts + 8 } : State).setReg8 r (s.reg8 r &&& ~~~((1 : Byte) <<< b.val)))) ∧
  (∀ (b : Fin 8) (s : State), exec (.resBMemHl b) s = .next { s with mem := s.mem.store s.memMap s.hl (s.peek s.hl &&& ~~~((1 : Byte) <<< b.val)), bus := .writeByte s.hl (s.peek s.hl &&& ~~~((1 : Byte) <<< b.val)) :: .readByte s.hl (s.peek s.hl) :: s.bus, tacts := s.tacts + 15 }) ∧
  (∀ (b : Fin 8) (d : Byte) (s : State), exec (.resBMemIx b d) s = .next { s with mem := s.mem.store s.memMap (s.indexAddr .ix d) (s.peek (s.indexAddr .ix d) &&& ~~~((1 : Byte) <<< b.val)), bus := .writeByte (s.indexAddr .ix d) (s.peek (s.indexAddr .ix d) &&& ~~~((1 : Byte) <<< b.val)) :: .readByte (s.indexAddr .ix d) (s.peek (s.indexAddr .ix d)) :: s.bus, wz := (s.indexAddr .ix d), tacts := s.tacts + 23 }) ∧
  (∀ (b : Fin 8) (d : Byte) (r : Reg8) (s : State), exec (.resBMemIxR b d r) s = .next (({ s with mem := s.mem.store s.memMap (s.indexAddr .ix d) (s.peek (s.indexAddr .ix d) &&& ~~~((1 : Byte) <<< b.val)), bus := .writeByte (s.indexAddr .ix d) (s.peek (s.indexAddr .ix d) &&& ~~~((1 : Byte) <<< b.val)) :: .readByte (s.indexAddr .ix d) (s.peek (s.indexAddr .ix d)) :: s.bus, wz := (s.indexAddr .ix d), tacts := s.tacts + 23 } : State).setReg8 r (s.peek (s.indexAddr .ix d) &&& ~~~((1 : Byte) <<< b.val)))) ∧
  (∀ (b : Fin 8) (d : Byte) (s : State), exec (.resBMemIy b d) s = .next { s with mem := s.mem.store s.memMap (s.indexAddr .iy d) (s.peek (s.indexAddr .iy d) &&& ~~~((1 : Byte) <<< b.val)), bus := .writeByte (s.indexAddr .iy d) (s.peek (s.indexAddr .iy d) &&& ~~~((1 : Byte) <<< b.val)) :: .readByte (s.indexAddr .iy d) (s.peek (s.indexAddr .iy d)) :: s.bus, wz := (s.indexAddr .iy d), tacts := s.tacts + 23 }) ∧
  (∀ (b : Fin 8) (d : Byte) (r : Reg8) (s : State), exec (.resBMemIyR b d r) s = .next (({ s with mem := s.mem.store s.memMap (s.indexAddr .iy d) (s.peek (s.indexAddr .iy d) &&& ~~~((1 : Byte) <<< b.val)), bus := .writeByte (s.indexAddr .iy d) (s.peek (s.indexAddr .iy d) &&& ~~~((1 : Byte) <<< b.val)) :: .readByte (s.indexAddr .iy d) (s.peek (s.indexAddr .iy d)) :: s.bus, wz := (s.indexAddr .iy d), tacts := s.tacts + 23 } : State).setReg8 r (s.peek (s.indexAddr .iy d) &&& ~~~((1 : Byte) <<< b.val))))

/-- Jumps: target, WZ and time taken or not, with the record of the branch. Derived: 48_jump_call_return.md R400 to R406 (operation, flags, WZ, events, time); 60_exceptions.md R507. -/
def Obligations.Jumps : Prop :=
  (∀ (nn : Word) (s : State), exec (.jpNn nn) s = .next { s with pc := nn, wz := nn, branchLog := s.branchLogWith (.jpNn nn) true nn, tacts := s.tacts + 10 }) ∧
  (∀ (cc : Cond) (nn : Word) (s : State), exec (.jpCcNn cc nn) s = .next { s with pc := if s.cond cc then nn else s.pc, wz := nn, branchLog := s.branchLogWith (.jpCcNn cc nn) (s.cond cc) nn, tacts := s.tacts + 10 }) ∧
  (∀ (e : Byte) (s : State), exec (.jr e) s = .next { s with pc := (s.pc + sext16 e), wz := (s.pc + sext16 e), branchLog := s.branchLogWith (.jr e) true (s.pc + sext16 e), tacts := s.tacts + 12 }) ∧
  (∀ (cc : JrCond) (e : Byte) (s : State), exec (.jrCc cc e) s = .next { s with pc := if s.jrCond cc then (s.pc + sext16 e) else s.pc, wz := if s.jrCond cc then (s.pc + sext16 e) else s.wz, branchLog := s.branchLogWith (.jrCc cc e) (s.jrCond cc) (s.pc + sext16 e), tacts := s.tacts + if s.jrCond cc then 12 else 7 }) ∧
  (∀ (e : Byte) (s : State), exec (.djnz e) s = .next { s with b := s.b - 1, pc := if s.b = 1 then s.pc else (s.pc + sext16 e), wz := if s.b = 1 then s.wz else (s.pc + sext16 e), branchLog := s.branchLogWith (.djnz e) (s.b != 1) (s.pc + sext16 e), tacts := s.tacts + if s.b = 1 then 8 else 13 }) ∧
  (∀ (s : State), exec .jpHl s = .next { s with pc := s.hl, branchLog := s.branchLogWith .jpHl true s.hl, tacts := s.tacts + 4 }) ∧
  (∀ (s : State), exec .jpIx s = .next { s with pc := s.ix, branchLog := s.branchLogWith .jpIx true s.ix, tacts := s.tacts + 8 }) ∧
  (∀ (s : State), exec .jpIy s = .next { s with pc := s.iy, branchLog := s.branchLogWith .jpIy true s.iy, tacts := s.tacts + 8 }) ∧
  (∀ (pc : Word) (e : Byte), (pc + sext16 e).toNat = ((pc.toNat : Int) + e.toInt) % 65536)

/-- CALL and RST push PC and jump; RET, RETI and RETN pop it; RETI and RETN copy IFF2 to IFF1. Derived: 48_jump_call_return.md R407 to R413 (operation, flags, WZ, events, time); 60_exceptions.md R480, R507, R509. -/
def Obligations.CallsReturns : Prop :=
  (∀ (nn : Word) (s : State), exec (.callNn nn) s = .next { s with sp := s.sp - 2, mem := (s.mem.store s.memMap (s.sp - 1) (hi s.pc)).store s.memMap (s.sp - 2) (lo s.pc), bus := .writeByte (s.sp - 2) (lo s.pc) :: .writeByte (s.sp - 1) (hi s.pc) :: s.bus, stackLog := s.stackLogWith (.instr (.callNn nn)) (.push s.pc) (s.sp - 2), pc := nn, wz := nn, branchLog := s.branchLogWith (.callNn nn) true nn, tacts := s.tacts + 17 }) ∧
  (∀ (cc : Cond) (nn : Word) (s : State), exec (.callCcNn cc nn) s = .next (if s.cond cc = true then { s with sp := s.sp - 2, mem := (s.mem.store s.memMap (s.sp - 1) (hi s.pc)).store s.memMap (s.sp - 2) (lo s.pc), bus := .writeByte (s.sp - 2) (lo s.pc) :: .writeByte (s.sp - 1) (hi s.pc) :: s.bus, stackLog := s.stackLogWith (.instr (.callCcNn cc nn)) (.push s.pc) (s.sp - 2), pc := nn, wz := nn, branchLog := s.branchLogWith (.callCcNn cc nn) true nn, tacts := s.tacts + 17 } else { s with wz := nn, branchLog := s.branchLogWith (.callCcNn cc nn) false nn, tacts := s.tacts + 10 })) ∧
  (∀ (t : Fin 8) (s : State), exec (.rst t) s = .next { s with sp := s.sp - 2, mem := (s.mem.store s.memMap (s.sp - 1) (hi s.pc)).store s.memMap (s.sp - 2) (lo s.pc), bus := .writeByte (s.sp - 2) (lo s.pc) :: .writeByte (s.sp - 1) (hi s.pc) :: s.bus, stackLog := s.stackLogWith (.instr (.rst t)) (.push s.pc) (s.sp - 2), pc := (BitVec.ofNat 16 (8 * t.val)), wz := (BitVec.ofNat 16 (8 * t.val)), branchLog := s.branchLogWith (.rst t) true (BitVec.ofNat 16 (8 * t.val)), tacts := s.tacts + 11 }) ∧
  (∀ (s : State), exec .ret s = .next { s with sp := s.sp + 2, bus := .readByte (s.sp + 1) (s.peekNext s.sp (s.sp + 1)) :: .readByte s.sp (s.peek s.sp) :: s.bus, stackLog := s.stackLogWith (.instr .ret) (.pop (word (s.peekNext s.sp (s.sp + 1)) (s.peek s.sp))) (s.sp + 2), pc := word (s.peekNext s.sp (s.sp + 1)) (s.peek s.sp), wz := word (s.peekNext s.sp (s.sp + 1)) (s.peek s.sp), branchLog := s.branchLogWith .ret true (word (s.peekNext s.sp (s.sp + 1)) (s.peek s.sp)), tacts := s.tacts + 10 }) ∧
  (∀ (cc : Cond) (s : State), exec (.retCc cc) s = .next (if s.cond cc = true then { s with sp := s.sp + 2, bus := .readByte (s.sp + 1) (s.peekNext s.sp (s.sp + 1)) :: .readByte s.sp (s.peek s.sp) :: s.bus, stackLog := s.stackLogWith (.instr (.retCc cc)) (.pop (word (s.peekNext s.sp (s.sp + 1)) (s.peek s.sp))) (s.sp + 2), pc := word (s.peekNext s.sp (s.sp + 1)) (s.peek s.sp), wz := word (s.peekNext s.sp (s.sp + 1)) (s.peek s.sp), branchLog := s.branchLogWith (.retCc cc) true (word (s.peekNext s.sp (s.sp + 1)) (s.peek s.sp)), tacts := s.tacts + 11 } else { s with branchLog := s.branchLogWith (.retCc cc) false s.pc, tacts := s.tacts + 5 })) ∧
  (∀ (s : State), exec .reti s = .next { s with sp := s.sp + 2, bus := .readByte (s.sp + 1) (s.peekNext s.sp (s.sp + 1)) :: .readByte s.sp (s.peek s.sp) :: s.bus, stackLog := s.stackLogWith (.instr .reti) (.pop (word (s.peekNext s.sp (s.sp + 1)) (s.peek s.sp))) (s.sp + 2), pc := word (s.peekNext s.sp (s.sp + 1)) (s.peek s.sp), wz := word (s.peekNext s.sp (s.sp + 1)) (s.peek s.sp), branchLog := s.branchLogWith .reti true (word (s.peekNext s.sp (s.sp + 1)) (s.peek s.sp)), tacts := s.tacts + 14, iff1 := s.iff2 }) ∧
  (∀ (y : Fin 8) (s : State), exec (.retn y) s = .next { s with sp := s.sp + 2, bus := .readByte (s.sp + 1) (s.peekNext s.sp (s.sp + 1)) :: .readByte s.sp (s.peek s.sp) :: s.bus, stackLog := s.stackLogWith (.instr (.retn y)) (.pop (word (s.peekNext s.sp (s.sp + 1)) (s.peek s.sp))) (s.sp + 2), pc := word (s.peekNext s.sp (s.sp + 1)) (s.peek s.sp), wz := word (s.peekNext s.sp (s.sp + 1)) (s.peek s.sp), branchLog := s.branchLogWith (.retn y) true (word (s.peekNext s.sp (s.sp + 1)) (s.peek s.sp)), tacts := s.tacts + 14, iff1 := s.iff2 })

/-- IN and OUT: the port address, one call of the host, the flags of IN r,(C). Derived: 49_io.md R430 to R435 (operation, flags, WZ, time); 20_memory.md R87; D21 for the byte of OUT (C),0. -/
def Obligations.PortInstructions : Prop :=
  (∀ (n : Byte) (s : State), exec (.inAN n) s = .next { s with a := s.portAnswer (word s.a n), wz := word s.a n + 1, portInputs := s.portInputs.tail, portReads := s.portReads + 1, bus := .readPort (word s.a n) (s.portAnswer (word s.a n)) :: s.bus, tacts := s.tacts + 11 }) ∧
  (∀ (n : Byte) (s : State), exec (.outNA n) s = .next { s with wz := word s.a (n + 1), bus := .writePort (word s.a n) s.a :: s.bus, tacts := s.tacts + 11 }) ∧
  (∀ (r : Reg8) (s : State), exec (.inRC r) s = .next (({ s with f := (szpFlags (s.portAnswer s.bc) s.flags).toByte, wz := s.bc + 1, portInputs := s.portInputs.tail, portReads := s.portReads + 1, bus := .readPort s.bc (s.portAnswer s.bc) :: s.bus, tacts := s.tacts + 12 } : State).setReg8 r (s.portAnswer s.bc))) ∧
  (∀ (s : State), exec .inC s = .next { s with f := (szpFlags (s.portAnswer s.bc) s.flags).toByte, wz := s.bc + 1, portInputs := s.portInputs.tail, portReads := s.portReads + 1, bus := .readPort s.bc (s.portAnswer s.bc) :: s.bus, tacts := s.tacts + 12 }) ∧
  (∀ (r : Reg8) (s : State), exec (.outCR r) s = .next { s with wz := s.bc + 1, bus := .writePort s.bc (s.reg8 r) :: s.bus, tacts := s.tacts + 12 }) ∧
  (∀ (s : State), exec .outC0 s = .next { s with wz := s.bc + 1, bus := .writePort s.bc 0x00 :: s.bus, tacts := s.tacts + 12 }) ∧
  (∀ (s : State) (p : Word) (v : Byte) (rest : List Byte), s.portInputs = v :: rest → s.portAnswer p = v)

/-- The block input and output instructions: one transfer per step, the new B in the flags. Derived: 49_io.md R436 to R443 (operation, flags, WZ, time); D18. -/
def Obligations.BlockPorts : Prop :=
  (∀ (s : State), let v := s.portAnswer s.bc; let b := s.b - 1; let k := v.toNat + (s.c + 1).toNat; exec .ini s = .next { s with h := hi (s.hl + 1), l := lo (s.hl + 1), b := b, f := ({ s := b.getLsbD 7, z := b == 0, r5 := b.getLsbD 5, h := decide (k > 255), r3 := b.getLsbD 3, pv := parity (BitVec.ofNat 8 (k % 8) ^^^ b), n := v.getLsbD 7, c := decide (k > 255) } : Flags).toByte, wz := s.bc + 1, mem := s.mem.store s.memMap s.hl v, portInputs := s.portInputs.tail, portReads := s.portReads + 1, bus := .writeByte s.hl v :: .readPort s.bc v :: s.bus, tacts := s.tacts + 16 }) ∧
  (∀ (s : State), let v := s.portAnswer s.bc; let b := s.b - 1; let k := v.toNat + (s.c - 1).toNat; exec .ind s = .next { s with h := hi (s.hl - 1), l := lo (s.hl - 1), b := b, f := ({ s := b.getLsbD 7, z := b == 0, r5 := b.getLsbD 5, h := decide (k > 255), r3 := b.getLsbD 3, pv := parity (BitVec.ofNat 8 (k % 8) ^^^ b), n := v.getLsbD 7, c := decide (k > 255) } : Flags).toByte, wz := s.bc - 1, mem := s.mem.store s.memMap s.hl v, portInputs := s.portInputs.tail, portReads := s.portReads + 1, bus := .writeByte s.hl v :: .readPort s.bc v :: s.bus, tacts := s.tacts + 16 }) ∧
  (∀ (s : State), let v := s.portAnswer s.bc; let b := s.b - 1; let k := v.toNat + (s.c + 1).toNat; exec .inir s = .next { s with h := hi (s.hl + 1), l := lo (s.hl + 1), b := b, f := ({ s := b.getLsbD 7, z := b == 0, r5 := b.getLsbD 5, h := decide (k > 255), r3 := b.getLsbD 3, pv := parity (BitVec.ofNat 8 (k % 8) ^^^ b), n := v.getLsbD 7, c := decide (k > 255) } : Flags).toByte, wz := s.bc + 1, mem := s.mem.store s.memMap s.hl v, portInputs := s.portInputs.tail, portReads := s.portReads + 1, bus := .writeByte s.hl v :: .readPort s.bc v :: s.bus, pc := if b = 0 then s.pc else s.pc - 2, tacts := s.tacts + if b = 0 then 16 else 21 }) ∧
  (∀ (s : State), let v := s.portAnswer s.bc; let b := s.b - 1; let k := v.toNat + (s.c - 1).toNat; exec .indr s = .next { s with h := hi (s.hl - 1), l := lo (s.hl - 1), b := b, f := ({ s := b.getLsbD 7, z := b == 0, r5 := b.getLsbD 5, h := decide (k > 255), r3 := b.getLsbD 3, pv := parity (BitVec.ofNat 8 (k % 8) ^^^ b), n := v.getLsbD 7, c := decide (k > 255) } : Flags).toByte, wz := s.bc - 1, mem := s.mem.store s.memMap s.hl v, portInputs := s.portInputs.tail, portReads := s.portReads + 1, bus := .writeByte s.hl v :: .readPort s.bc v :: s.bus, pc := if b = 0 then s.pc else s.pc - 2, tacts := s.tacts + if b = 0 then 16 else 21 }) ∧
  (∀ (s : State), let v := s.peek s.hl; let b := s.b - 1; let k := v.toNat + (lo (s.hl + 1)).toNat; exec .outi s = .next { s with h := hi (s.hl + 1), l := lo (s.hl + 1), b := b, f := ({ s := b.getLsbD 7, z := b == 0, r5 := b.getLsbD 5, h := decide (k > 255), r3 := b.getLsbD 3, pv := parity (BitVec.ofNat 8 (k % 8) ^^^ b), n := v.getLsbD 7, c := decide (k > 255) } : Flags).toByte, wz := word b s.c + 1, bus := .writePort (word b s.c) v :: .readByte s.hl v :: s.bus, tacts := s.tacts + 16 }) ∧
  (∀ (s : State), let v := s.peek s.hl; let b := s.b - 1; let k := v.toNat + (lo (s.hl - 1)).toNat; exec .outd s = .next { s with h := hi (s.hl - 1), l := lo (s.hl - 1), b := b, f := ({ s := b.getLsbD 7, z := b == 0, r5 := b.getLsbD 5, h := decide (k > 255), r3 := b.getLsbD 3, pv := parity (BitVec.ofNat 8 (k % 8) ^^^ b), n := v.getLsbD 7, c := decide (k > 255) } : Flags).toByte, wz := word b s.c - 1, bus := .writePort (word b s.c) v :: .readByte s.hl v :: s.bus, tacts := s.tacts + 16 }) ∧
  (∀ (s : State), let v := s.peek s.hl; let b := s.b - 1; let k := v.toNat + (lo (s.hl + 1)).toNat; exec .otir s = .next { s with h := hi (s.hl + 1), l := lo (s.hl + 1), b := b, f := ({ s := b.getLsbD 7, z := b == 0, r5 := b.getLsbD 5, h := decide (k > 255), r3 := b.getLsbD 3, pv := parity (BitVec.ofNat 8 (k % 8) ^^^ b), n := v.getLsbD 7, c := decide (k > 255) } : Flags).toByte, wz := word b s.c + 1, bus := .writePort (word b s.c) v :: .readByte s.hl v :: s.bus, pc := if b = 0 then s.pc else s.pc - 2, tacts := s.tacts + if b = 0 then 16 else 21 }) ∧
  (∀ (s : State), let v := s.peek s.hl; let b := s.b - 1; let k := v.toNat + (lo (s.hl - 1)).toNat; exec .otdr s = .next { s with h := hi (s.hl - 1), l := lo (s.hl - 1), b := b, f := ({ s := b.getLsbD 7, z := b == 0, r5 := b.getLsbD 5, h := decide (k > 255), r3 := b.getLsbD 3, pv := parity (BitVec.ofNat 8 (k % 8) ^^^ b), n := v.getLsbD 7, c := decide (k > 255) } : Flags).toByte, wz := word b s.c - 1, bus := .writePort (word b s.c) v :: .readByte s.hl v :: s.bus, pc := if b = 0 then s.pc else s.pc - 2, tacts := s.tacts + if b = 0 then 16 else 21 })

/-- Every instruction completes in every state, in 4 to 23 T-states. Derived: 60_exceptions.md R460; 30_encoding.md R118; 70_reset_and_hazards.md R540, R541; 93_implementation_defined.md U10. -/
def Obligations.EveryInstructionCompletes : Prop :=
  ∀ (i : Instr) (s : State), ∃ t, exec i s = .next t ∧ s.tacts ≤ t.tacts ∧ t.tacts ≤ s.tacts + 23 ∧
  (i.wellFormed = true → s.tacts + 4 ≤ t.tacts) ∧ t.opAddr = s.opAddr ∧ t.opTacts = s.opTacts

/-- Memory changes only at the addresses the instruction stores to. Derived: 20_memory.md R77 (no access beyond those of the rules), R79; the Operation clauses of 40_load8.md to 49_io.md. -/
def Obligations.StoresOnlyWhereStated : Prop :=
  ∀ (i : Instr) (s t : State) (a : Word), exec i s = .next t →
  (a ∉ storedTo i s ∨ s.memMap.kindAt a ≠ .ram →
    t.mem.read a = s.mem.read a ∧ (s.memMap.kindAt a ≠ .device → t.peek a = s.peek a)) ∧
  (storedTo i s = [] → t.mem = s.mem) ∧ t.memMap = s.memMap

/-- What an instruction calls on the host: writes where it stores, ports only by IN and OUT. Derived: 10_state.md R43; 20_memory.md R70, R77; 49_io.md, the Operation clauses. -/
def Obligations.BusTraffic : Prop :=
  ∀ (i : Instr) (s t : State), exec i s = .next t → ∃ new : List BusEvent, t.bus = new ++ s.bus ∧ new.length ≤ 4 ∧
  (∀ a : Word, (∃ v, BusEvent.writeByte a v ∈ new) ↔ a ∈ storedTo i s) ∧
  ((new.filter fun e => match e with | .readPort _ _ => true | .writePort _ _ => true | _ => false).length = if i.usesPort then 1 else 0) ∧
  (i.usesPort = false → t.portInputs = s.portInputs ∧ t.portReads = s.portReads)

/-- Which instructions write I, R, IM, IFF1, IFF2, halted, the EI delay and the requests. Derived: 10_state.md R29, R30, R31, R32, R33, R34, R37, R38, R39; 60_exceptions.md R481. -/
def Obligations.ControlStateWriters : Prop :=
  ∀ (i : Instr) (s t : State), exec i s = .next t →
  (i ≠ .ldIA → t.i = s.i) ∧ (i ≠ .ldRA → t.r = s.r) ∧
  ((∀ x5 x3, i ≠ .im0 x5 x3) → (∀ x5, i ≠ .im1 x5) → (∀ x5, i ≠ .im2 x5) → t.im = s.im) ∧
  (i ≠ .ei → i ≠ .di → i ≠ .reti → (∀ y, i ≠ .retn y) → t.iff1 = s.iff1) ∧
  (i ≠ .ei → i ≠ .di → t.iff2 = s.iff2) ∧ (i ≠ .halt → t.halted = s.halted) ∧ (s.halted = true → t.halted = true) ∧
  (i ≠ .ei → t.eiDelay = s.eiDelay) ∧
  t.intPending = s.intPending ∧ t.intBus = s.intBus ∧ t.nmiPending = s.nmiPending

/-- Only the two exchanges reach the shadow set, and they swap by value. Stated: 10_state.md R22. -/
def Obligations.ShadowSetUse : Prop :=
  (∀ (i : Instr) (s t : State), exec i s = .next t → i ≠ .exAfAf →
    t.a' = s.a' ∧ t.f' = s.f' ∧ ∀ v w : Byte, exec i { s with a' := v, f' := w } = .next { t with a' := v, f' := w }) ∧
  (∀ (i : Instr) (s t : State), exec i s = .next t → i ≠ .exx →
    t.b' = s.b' ∧ t.c' = s.c' ∧ t.d' = s.d' ∧ t.e' = s.e' ∧ t.h' = s.h' ∧ t.l' = s.l' ∧
    ∀ u v w x y z : Byte, exec i { s with b' := u, c' := v, d' := w, e' := x, h' := y, l' := z } =
      .next { t with b' := u, c' := v, d' := w, e' := x, h' := y, l' := z }) ∧
  (∀ s : State, ∃ t, exec .exAfAf s = .next t ∧ t.a = s.a' ∧ t.f = s.f' ∧ t.a' = s.a ∧ t.f' = s.f) ∧
  (∀ s : State, ∃ t, exec .exx s = .next t ∧ t.b = s.b' ∧ t.c = s.c' ∧ t.d = s.d' ∧ t.e = s.e' ∧ t.h = s.h' ∧ t.l = s.l' ∧
    t.b' = s.b ∧ t.c' = s.c ∧ t.d' = s.d ∧ t.e' = s.e ∧ t.h' = s.h ∧ t.l' = s.l)

/-- I is written only by LD I,A and reset, and read only by LD A,I and mode 2 acceptance. Stated: 10_state.md R29. -/
def Obligations.VectorRegisterUse : Prop :=
  (∀ (i : Instr) (s t : State), exec i s = .next t → i ≠ .ldIA →
    t.i = s.i ∧ (i ≠ .ldAI → ∀ v : Byte, exec i { s with i := v } = .next { t with i := v })) ∧
  (∀ s t : State, step s = .next t → ¬s.runsInstruction →
    t.i = s.i ∧ (¬(s.takesInt ∧ s.im = .im2) → ∀ v : Byte, step { s with i := v } = .next { t with i := v })) ∧
  (∀ s : State, s.takesInt → s.im = .im2 → ∃ (t : State) (low high : Byte) (rest : List BusEvent), step s = .next t ∧
    t.bus = .readByte (word s.i s.intBus + 1) high :: .readByte (word s.i s.intBus) low :: rest ∧ t.pc = word high low) ∧
  (∀ s : State, ∃ t, exec .ldIA s = .next t ∧ t.i = s.a) ∧ (∀ s : State, ∃ t, exec .ldAI s = .next t ∧ t.a = s.i) ∧
  (∀ s : State, s.hostReset.i = 0x00)

/-- An instruction that the flag summary does not list keeps all eight flags. Derived: 10_state.md R28, R44. -/
def Obligations.FlagsKept : Prop :=
  ∀ (i : Instr) (s t : State), exec i s = .next t → i.writesF = false → t.f = s.f

/-- IX and IY belong to the DD and FD spaces; SP moves only where listed. Derived: 10_state.md R24, R25. -/
def Obligations.IndexAndStackPointerUse : Prop :=
  ∀ (i : Instr) (s t : State), exec i s = .next t →
  (i.indexOf ≠ some .ix → t.ix = s.ix ∧ ∀ v : Word, exec i { s with ix := v } = .next { t with ix := v }) ∧
  (i.indexOf ≠ some .iy → t.iy = s.iy ∧ ∀ v : Word, exec i { s with iy := v } = .next { t with iy := v }) ∧
  (i.movesSp = false → t.sp = s.sp)

/-- Observers and the time of the counter change no result. Derived: 60_exceptions.md R506, R507; 00_scope.md R13; 10_state.md R35. -/
def Obligations.ObserversChangeNothing : Prop :=
  ∀ (i : Instr) (s t : State) (p q : Bool) (bl : List BranchEvent) (sl : List StackEvent) (n : Nat), exec i s = .next t →
  ∃ (bl' : List BranchEvent) (sl' : List StackEvent),
    exec i { s.withObservers p q bl sl with tacts := n } = .next { t.withObservers p q bl' sl' with tacts := n + (t.tacts - s.tacts) } ∧
    (q = false → sl' = sl) ∧ bl'.length = bl.length + (if p && i.isBranch then 1 else 0) ∧ bl'.drop (bl'.length - bl.length) = bl

/-- A step runs the decoded instruction on the state after its fetches. Derived: 60_exceptions.md R470; 30_encoding.md R102; 00_scope.md R10; 20_memory.md R75. -/
def Obligations.StepRunsDecoded : Prop :=
  (∀ (s : State) (bytes : List Byte) (d : Decoded), s.runsInstruction → leadingPrefixes bytes < 65536 → s.holdsBytes s.pc bytes →
    decode bytes = .ok d → step s = runUnits (d.prefixes ++ [d.instr]) (s.fetched d.len d.m1)) ∧
  (∀ (s : State) (i : Instr), s.runsInstruction → i.wellFormed = true → s.holdsBytes s.pc (encode i) →
    step s = runUnits (i.units ++ [i]) (s.fetched (encode i).length i.opcodeFetches)) ∧
  (∀ (s : State) (i : Instr), s.runsInstruction → i.wellFormed = true → i.units = [] → s.holdsBytes s.pc (encode i) →
    step s = exec i (s.fetched (encode i).length 1))

/-- The acceptance of a non-maskable interrupt. Stated: 60_exceptions.md R477. -/
def Obligations.AcceptNmi : Prop :=
  ∀ s : State, s.nmiPending = true → step s = .next { s with halted := false, r := (s.r &&& 0x80) ||| ((s.r + 1) &&& 0x7F), iff1 := false, sp := s.sp - 2, mem := (s.mem.store s.memMap (s.sp - 1) (hi s.pc)).store s.memMap (s.sp - 2) (lo s.pc), bus := .writeByte (s.sp - 2) (lo s.pc) :: .writeByte (s.sp - 1) (hi s.pc) :: s.bus, pc := 0x0066, wz := 0x0066, tacts := s.tacts + 11, stackLog := ({ s with opAddr := s.pc, opTacts := s.tacts } : State).stackLogWith .nmi (.push s.pc) (s.sp - 2), opAddr := s.pc, opTacts := s.tacts, nmiPending := false, eiDelay := false, iff2 := s.iff1 }

/-- The acceptance of a maskable interrupt in modes 0, 1 and 2. In mode 0 with a byte that is no RST the spec gives it no meaning, and the refusal is the model's choice (log 9, DESIGN CHOICE). Derived: 60_exceptions.md R473, R474, R475, R476; 93_implementation_defined.md U1, D8 (mode 0 with a byte that is no RST: the model's choice, log 9). -/
def Obligations.AcceptInt : Prop :=
  ∀ s : State, s.takesInt →
  (s.im = .im0 → s.intBus &&& 0xC7 = 0xC7 → step s = .next { s with halted := false, r := (s.r &&& 0x80) ||| ((s.r + 1) &&& 0x7F), iff1 := false, sp := s.sp - 2, mem := (s.mem.store s.memMap (s.sp - 1) (hi s.pc)).store s.memMap (s.sp - 2) (lo s.pc), bus := .writeByte (s.sp - 2) (lo s.pc) :: .writeByte (s.sp - 1) (hi s.pc) :: s.bus, pc := BitVec.ofNat 16 (s.intBus &&& 0x38).toNat, wz := BitVec.ofNat 16 (s.intBus &&& 0x38).toNat, tacts := s.tacts + 13, stackLog := ({ s with opAddr := s.pc, opTacts := s.tacts } : State).stackLogWith .int (.push s.pc) (s.sp - 2), opAddr := s.pc, opTacts := s.tacts, intPending := false, iff2 := false }) ∧
  (s.im = .im0 → s.intBus &&& 0xC7 ≠ 0xC7 → step s = .refused .im0Response) ∧
  (s.im = .im1 → step s = .next { s with halted := false, r := (s.r &&& 0x80) ||| ((s.r + 1) &&& 0x7F), iff1 := false, sp := s.sp - 2, mem := (s.mem.store s.memMap (s.sp - 1) (hi s.pc)).store s.memMap (s.sp - 2) (lo s.pc), bus := .writeByte (s.sp - 2) (lo s.pc) :: .writeByte (s.sp - 1) (hi s.pc) :: s.bus, pc := 0x0038, wz := 0x0038, tacts := s.tacts + 13, stackLog := ({ s with opAddr := s.pc, opTacts := s.tacts } : State).stackLogWith .int (.push s.pc) (s.sp - 2), opAddr := s.pc, opTacts := s.tacts, intPending := false, iff2 := false }) ∧
  (s.im = .im2 →
    let m := (s.mem.store s.memMap (s.sp - 1) (hi s.pc)).store s.memMap (s.sp - 2) (lo s.pc)
    let pushed : State := { s with mem := m, bus := .writeByte (s.sp - 2) (lo s.pc) :: .writeByte (s.sp - 1) (hi s.pc) :: s.bus }
    let va := word s.i s.intBus
    let low := pushed.peek va
    let high := pushed.peekNext va (va + 1)
    step s = .next { s with halted := false, r := (s.r &&& 0x80) ||| ((s.r + 1) &&& 0x7F), iff1 := false, sp := s.sp - 2, mem := (s.mem.store s.memMap (s.sp - 1) (hi s.pc)).store s.memMap (s.sp - 2) (lo s.pc), bus := .readByte (va + 1) high :: .readByte va low :: .writeByte (s.sp - 2) (lo s.pc) :: .writeByte (s.sp - 1) (hi s.pc) :: s.bus, pc := word high low, wz := word high low, tacts := s.tacts + 19, stackLog := ({ s with opAddr := s.pc, opTacts := s.tacts } : State).stackLogWith .int (.push s.pc) (s.sp - 2), opAddr := s.pc, opTacts := s.tacts, intPending := false, iff2 := false })

/-- NMI before INT before the halted cycle before the program. Derived: 60_exceptions.md R470, R471, R472; 44_general_control.md R297; 10_state.md R34. -/
def Obligations.StepPriority : Prop :=
  ∀ s : State,
  (s.nmiPending = true → ∃ t, step s = .next t ∧ t.pc = 0x0066 ∧ t.nmiPending = false ∧ t.intPending = s.intPending ∧ t.halted = false) ∧
  (∀ t, s.takesInt → step s = .next t → t.intPending = false ∧ t.iff1 = false ∧ t.iff2 = false ∧ t.halted = false) ∧
  (s.acceptsNothing → s.halted = true → step s = .next { s with eiDelay := false, r := (s.r &&& 0x80) ||| ((s.r + 1) &&& 0x7F), tacts := s.tacts + 4 }) ∧
  (∀ t, s.acceptsNothing → step s = .next t → t.intPending = s.intPending ∧ t.intBus = s.intBus ∧ t.nmiPending = false ∧ (s.halted = true → t.halted = true))

/-- A step stops exactly for an endless prefix chain or a mode 0 byte that is no RST. Derived: 30_encoding.md R118, R120; 60_exceptions.md R460, R474; 93_implementation_defined.md U1, U7; D8, D27 (what a model does there is its choice: logs 8 and 9). -/
def Obligations.StepStopsExactly : Prop :=
  ∀ s : State,
  (step s = .fault .prefixHang ↔ s.runsInstruction ∧ s.allPrefixes) ∧
  (step s = .refused .im0Response ↔ s.im0Unanswered) ∧
  ((∃ t, step s = .next t) ↔ ¬(s.runsInstruction ∧ s.allPrefixes) ∧ ¬s.im0Unanswered) ∧
  (∀ m : String, step s ≠ .refused (.notModelled m))

/-- A request right after EI waits for one further instruction. Derived: 44_general_control.md R299; 60_exceptions.md R472; 10_state.md R37. -/
def Obligations.EiDelaysOneInstruction : Prop :=
  ∀ (s t : State) (busByte : Byte), s.runsInstruction → s.peek s.pc = 0xFB → step s = .next t →
  t.iff1 = true ∧ t.iff2 = true ∧ t.eiDelay = true ∧ t.pc = s.pc + 1 ∧ t.halted = false ∧
  (t.requestInterrupt busByte).runsInstruction ∧
  (∀ u, step (t.requestInterrupt busByte) = .next u →
    u.intPending = true ∧ u.intBus = busByte ∧ (u.eiDelay = false → u.iff1 = true → u.takesInt) ∧
    (u.eiDelay = true → u.iff1 = true)) ∧
  (∃ u, step t.requestNmi = .next u ∧ u.pc = 0x0066 ∧ u.iff1 = false ∧ u.iff2 = true)

/-- An NMI and the RETN at its vector come back to the program with IFF1 restored. Derived: 60_exceptions.md R477, R480; 48_jump_call_return.md R412; 95_test_vectors.md S6. -/
def Obligations.NmiThenRetn : Prop :=
  ∀ (s : State) (y : Fin 8), s.mem.wf = true → s.nmiPending = true → y ≠ 1 → s.holdsBytes 0x0066 (encode (.retn y)) →
  s.memMap.kindAt 0x0066 ≠ .device → s.memMap.kindAt 0x0067 ≠ .device → s.memMap.kindAt (s.sp - 1) = .ram → s.memMap.kindAt (s.sp - 2) = .ram →
  s.sp - 1 ≠ 0x0066 → s.sp - 1 ≠ 0x0067 → s.sp - 2 ≠ 0x0066 → s.sp - 2 ≠ 0x0067 →
  ∃ t u, step s = .next t ∧ step t = .next u ∧ t.pc = 0x0066 ∧ t.iff1 = false ∧ t.iff2 = s.iff1 ∧
    u.pc = s.pc ∧ u.sp = s.sp ∧ u.iff1 = s.iff1 ∧ u.iff2 = s.iff1 ∧ u.halted = false ∧ u.tacts = s.tacts + 25 ∧
    u.af = s.af ∧ u.bc = s.bc ∧ u.de = s.de ∧ u.hl = s.hl ∧ u.ix = s.ix ∧ u.iy = s.iy ∧ u.im = s.im ∧ u.i = s.i ∧
    u.a' = s.a' ∧ u.f' = s.f' ∧ u.b' = s.b' ∧ u.c' = s.c' ∧ u.d' = s.d' ∧ u.e' = s.e' ∧ u.h' = s.h' ∧ u.l' = s.l'

/-- Every step takes at least 4 T-states and under 263,000, and R counts within its low seven bits. Derived: 10_state.md R30, R35; 70_reset_and_hazards.md R541; 93_implementation_defined.md U10. -/
def Obligations.StepTakesTime : Prop :=
  ∀ s t : State, step s = .next t →
  s.tacts + 4 ≤ t.tacts ∧ t.tacts < s.tacts + 263000 ∧ (tactsConsumed s t).toNat = t.tacts - s.tacts ∧
  (¬s.runsInstruction → t.r.getLsbD 7 = s.r.getLsbD 7) ∧
  (∀ d : Decoded, s.runsInstruction → decode s.window = .ok d → d.instr ≠ .ldRA → t.r.getLsbD 7 = s.r.getLsbD 7)

/-- Every step keeps the invariant of the machine. Derived: 10_state.md R31, R32, R37; 20_memory.md R79; 60_exceptions.md R470, R473, R477. -/
def Obligations.InvariantStep : Prop :=
  ∀ s t : State, s.Inv → step s = .next t → t.Inv

/-- The invariant holds right after reset. Derived: 10_state.md R40; 70_reset_and_hazards.md R521. -/
def Obligations.InvariantReset : Prop :=
  State.reset.Inv ∧ ∀ (p : PowerOn) (contents : Memory) (kinds : MemMap), contents.wf = true → (State.construct p contents kinds).Inv

/-- Every run, with host calls between the steps, keeps the invariant. Derived: 60_exceptions.md R465 to R468, R506; 20_memory.md R81; 70_reset_and_hazards.md R520. -/
def Obligations.InvariantRun : Prop :=
  (∀ (s : State) (c : HostCall), s.Inv → (s.afterCall c).Inv) ∧ (∀ s t : State, s.Inv → Run s t → t.Inv)

/-- Reset() sets what it lists and leaves everything else. Stated: 70_reset_and_hazards.md R520. -/
def Obligations.ResetCall : Prop :=
  ∀ s : State, s.hostReset = { s with
  pc := 0x0000, i := 0x00, r := 0x00, iff1 := false, iff2 := false, im := .im0, halted := false,
  eiDelay := false, intPending := false, nmiPending := false, tacts := 0 }

/-- The values after construction, for every POWER_ON, memory content and memory kind. Derived: 10_state.md R40, R42; 70_reset_and_hazards.md R521, R522; 00_scope.md R6. -/
def Obligations.ResetValues : Prop :=
  ∀ (p : PowerOn) (contents : Memory) (kinds : MemMap),
  let s := State.construct p contents kinds
  s.pc = 0x0000 ∧ s.i = 0 ∧ s.r = 0 ∧ s.iff1 = false ∧ s.iff2 = false ∧ s.im = .im0 ∧ s.halted = false ∧ s.tacts = 0 ∧
  s.eiDelay = false ∧ s.intPending = false ∧ s.nmiPending = false ∧ s.branchObserver = false ∧ s.stackObserver = false ∧
  s.a = p.a ∧ s.f = p.f ∧ s.b = p.b ∧ s.c = p.c ∧ s.d = p.d ∧ s.e = p.e ∧ s.h = p.h ∧ s.l = p.l ∧
  s.a' = p.a' ∧ s.f' = p.f' ∧ s.b' = p.b' ∧ s.c' = p.c' ∧ s.d' = p.d' ∧ s.e' = p.e' ∧ s.h' = p.h' ∧ s.l' = p.l' ∧
  s.ix = p.ix ∧ s.iy = p.iy ∧ s.sp = p.sp ∧ s.wz = p.wz ∧ s.mem = contents ∧ s.memMap = kinds ∧ s.hostReset = s

/-- ExchangeShadow() is both exchanges at once and its own inverse. Derived: 10_state.md R23 (no time and no fetch: an inference the spec marks as its own); 42_exchange_block.md R201, R202. -/
def Obligations.ExchangeShadowCall : Prop :=
  ∀ s : State,
  s.exchangeShadow = { s with
    a := s.a', f := s.f', b := s.b', c := s.c', d := s.d', e := s.e', h := s.h', l := s.l',
    a' := s.a, f' := s.f, b' := s.b, c' := s.c, d' := s.d, e' := s.e, h' := s.h, l' := s.l } ∧
  s.exchangeShadow.exchangeShadow = s ∧
  ∃ t, exec .exAfAf s = .next t ∧ exec .exx t = .next { s.exchangeShadow with tacts := s.tacts + 8 }

/-- RAM, ROM and device-mapped memory behind the same two functions. What a device answers and that a write to it changes no byte is the model's choice (log 18, DESIGN CHOICE), and so is that the first region that holds an address says its kind, wrapping at the top (log 3, DESIGN CHOICE). Derived: 00_scope.md R6; 20_memory.md R70, R77, R79; 70_reset_and_hazards.md R534; logs 3 and 18 (the order of regions and what a device answers: the model's choice). -/
def Obligations.MemoryKinds : Prop :=
  (∀ (s : State) (a b : Word) (v : Byte),
    (s.memMap.kindAt a = .ram → s.mem.wf = true → (s.memWrite a v).peek a = v ∧ (s.memWrite a v).mem.wf = true) ∧
    (s.memMap.kindAt a ≠ .ram → (s.memWrite a v).mem = s.mem) ∧
    (s.memMap.kindAt b ≠ .device → (b ≠ a ∨ s.memMap.kindAt b = .rom) → (s.memWrite a v).peek b = s.peek b) ∧
    (s.memMap.kindAt b ≠ .device → s.peekNext a b = s.peek b ∧ s.peek b = s.mem.read b) ∧
    (s.memMap.kindAt a = .device → s.peek a = Config.deviceByte s.bus a) ∧
    (s.memRead a).1 = s.peek a ∧ (s.memRead a).2 = { s with bus := .readByte a (s.peek a) :: s.bus } ∧
    (s.memWrite a v).bus = .writeByte a v :: s.bus) ∧
  (∀ a : Word, MemMap.kindAt [] a = .ram) ∧
  (∀ (r : Region) (rest : MemMap) (a : Word), MemMap.kindAt (r :: rest) a = if (a - r.base).toNat < r.size then r.kind else MemMap.kindAt rest a)
end

