-- ==== Sys2Proof/Laws/Bits.lean ====
section
/-! SUPPORT. Words as their two bytes, and the flag byte as its eight flags. -/

namespace Sys2Proof

/-- The bits of a word made of two bytes. -/
theorem getLsbD_word (h l : Byte) (k : Nat) : (word h l).getLsbD k = if k < 8 then l.getLsbD k else h.getLsbD (k - 8) :=
  BitVec.getLsbD_append

@[simp] theorem hi_word (h l : Byte) : hi (word h l) = h := by
  apply BitVec.eq_of_getLsbD_eq; intro k hk; simp [hi, getLsbD_word, hk, show ¬8 + k < 8 by omega]

@[simp] theorem lo_word (h l : Byte) : lo (word h l) = l := by
  apply BitVec.eq_of_getLsbD_eq; intro k hk; simp [lo, getLsbD_word, hk]

@[simp] theorem word_hi_lo (w : Word) : word (hi w) (lo w) = w := by
  apply BitVec.eq_of_getLsbD_eq; intro k hk
  rw [getLsbD_word]
  by_cases h8 : k < 8
  · simp [lo, h8]
  · simp [hi, h8, show k - 8 < 8 by omega, show 8 + (k - 8) = k by omega]

/-- A word is its two bytes. -/
theorem word_inj {h l h' l' : Byte} : word h l = word h' l' ↔ h = h' ∧ l = l' :=
  ⟨fun e => ⟨by simpa using congrArg hi e, by simpa using congrArg lo e⟩, by rintro ⟨rfl, rfl⟩; rfl⟩

theorem toNat_word (h l : Byte) : (word h l).toNat = 256 * h.toNat + l.toNat := by
  unfold word
  rw [BitVec.toNat_append, ← Nat.shiftLeft_add_eq_or_of_lt l.isLt, Nat.shiftLeft_eq]
  omega

theorem Machine.carryNat_eq (c : Bool) : Machine.carryNat c = c.toNat := by cases c <;> rfl

/-- Stepping down twice is stepping down by two. -/
theorem sub_one_sub_one (w : Word) : w - 1 - 1 = w - 2 := by bv_omega

theorem sub_two_add_one (w : Word) : w - 2 + 1 = w - 1 := by bv_omega

end Sys2Proof
end

