-- ==== Sys2Proof/Laws/Memory.lean ====
section
/-! SUPPORT. The memory: a read after a write, and the canonical form kept by every operation that writes memory. -/

namespace Sys2Proof.Machine

theorem Memory.wfFrom_mono {low low' : Nat} {m : Memory} (h : Memory.wfFrom low m = true) (hl : low' ≤ low) :
    Memory.wfFrom low' m = true := by
  cases m with
  | nil => rfl
  | cons c m => simp only [Memory.wfFrom, Bool.and_eq_true, decide_eq_true_eq] at h ⊢; exact ⟨⟨⟨by omega, h.1.1.2⟩, h.1.2⟩, h.2⟩

/-- A read below the first address gives the byte of an unlisted address. -/
theorem Memory.read_of_lt {low : Nat} {m : Memory} (h : Memory.wfFrom low m = true) {a : Word} (ha : a.toNat < low) :
    m.read a = Config.unlistedByte := by
  induction m generalizing low with
  | nil => rfl
  | cons c m ih =>
    simp only [Memory.wfFrom, Bool.and_eq_true, decide_eq_true_eq] at h
    simp only [Memory.read, if_neg (show ¬c.1 = a.toNat by omega)]
    exact ih h.2 (by omega)

theorem Memory.read_cons (k : Nat) (v : Byte) (m : Memory) (a : Word) (hk : k ≠ a.toNat) : (Memory.cons k v m).read a = m.read a := by
  unfold Memory.cons; split
  · rfl
  · simp [Memory.read, hk]

/-- A write leaves every other address as it was, whatever the form of the memory. -/
theorem Memory.read_write_other (m : Memory) (a b : Word) (v : Byte) (hab : b ≠ a) : (m.write a v).read b = m.read b := by
  have hn : a.toNat ≠ b.toNat := fun h => hab (BitVec.eq_of_toNat_eq h.symm)
  induction m with
  | nil => exact Memory.read_cons _ _ _ _ hn
  | cons c m ih =>
    simp only [Memory.write]
    split
    · simp [Memory.read, ih]
    split
    · next h => rw [Memory.read_cons _ _ _ _ (by omega)]; simp [Memory.read, show c.1 ≠ b.toNat by omega]
    · exact Memory.read_cons _ _ _ _ hn

theorem Memory.wfFrom_cons {low k : Nat} {v : Byte} {m : Memory} (hk : low ≤ k) (hlt : k < 65536) (h : Memory.wfFrom (k + 1) m = true) :
    Memory.wfFrom low (Memory.cons k v m) = true := by
  unfold Memory.cons; split
  · exact Memory.wfFrom_mono h (by omega)
  · next hv => simp [Memory.wfFrom, hk, hlt, h, hv]

theorem Memory.wfFrom_write {low : Nat} {m : Memory} (h : Memory.wfFrom low m = true) (a : Word) (v : Byte) (ha : low ≤ a.toNat) :
    Memory.wfFrom low (m.write a v) = true := by
  induction m generalizing low with
  | nil => exact Memory.wfFrom_cons ha a.isLt rfl
  | cons c m ih =>
    simp only [Memory.wfFrom, Bool.and_eq_true, decide_eq_true_eq] at h
    simp only [Memory.write]
    split
    · next hlt => simp only [Memory.wfFrom, Bool.and_eq_true, decide_eq_true_eq]; exact ⟨h.1, ih h.2 (by omega)⟩
    split
    · exact Memory.wfFrom_cons h.1.1.1 h.1.1.2 h.2
    · next h1 h2 =>
      refine Memory.wfFrom_cons ha a.isLt ?_
      simp only [Memory.wfFrom, Bool.and_eq_true, decide_eq_true_eq]
      exact ⟨⟨⟨by omega, h.1.1.2⟩, h.1.2⟩, h.2⟩

/-- A write keeps the canonical form. -/
theorem Memory.wf_write {m : Memory} (h : m.wf = true) (a : Word) (v : Byte) : (m.write a v).wf = true :=
  Memory.wfFrom_write h a v (Nat.zero_le _)

theorem Memory.read_write_same_from {low : Nat} {m : Memory} (h : Memory.wfFrom low m = true) (a : Word) (v : Byte) :
    (m.write a v).read a = v := by
  have own : ∀ (n : Memory), Memory.wfFrom (a.toNat + 1) n = true → (Memory.cons a.toNat v n).read a = v := by
    intro n hn; unfold Memory.cons; split
    · next hv => rw [hv]; exact Memory.read_of_lt hn (by omega)
    · simp [Memory.read]
  induction m generalizing low with
  | nil => exact own [] rfl
  | cons c m ih =>
    simp only [Memory.wfFrom, Bool.and_eq_true, decide_eq_true_eq] at h
    simp only [Memory.write]
    split
    · next hlt => simp only [Memory.read, if_neg (show ¬c.1 = a.toNat by omega)]; exact ih h.2
    split
    · next h1 h2 => rw [h2]; exact own m (h2 ▸ h.2)
    · next h1 h2 =>
      refine own _ ?_
      simp only [Memory.wfFrom, Bool.and_eq_true, decide_eq_true_eq]
      exact ⟨⟨⟨by omega, h.1.1.2⟩, h.1.2⟩, h.2⟩

/-- A written byte reads back. -/
theorem Memory.read_write_same {m : Memory} (h : m.wf = true) (a : Word) (v : Byte) : (m.write a v).read a = v :=
  Memory.read_write_same_from h a v

/-! ## Kinds of memory -/

/-- A write to ROM or to a device changes no byte. -/
theorem Memory.store_of_ne_ram {kinds : MemMap} {a : Word} (h : kinds.kindAt a ≠ .ram) (m : Memory) (v : Byte) : m.store kinds a v = m := by
  unfold Memory.store; split
  · exact absurd ‹_› h
  · rfl
  · rfl

theorem Memory.store_of_ram {kinds : MemMap} {a : Word} (h : kinds.kindAt a = .ram) (m : Memory) (v : Byte) : m.store kinds a v = m.write a v := by
  simp [Memory.store, h]

/-- Everything a store can be. -/
theorem Memory.store_cases (m : Memory) (kinds : MemMap) (a : Word) (v : Byte) :
    (kinds.kindAt a = .ram ∧ m.store kinds a v = m.write a v) ∨ (kinds.kindAt a ≠ .ram ∧ m.store kinds a v = m) := by
  by_cases h : kinds.kindAt a = .ram
  · exact .inl ⟨h, store_of_ram h m v⟩
  · exact .inr ⟨h, store_of_ne_ram h m v⟩

/-- A store leaves every other address, and every address that is not RAM, as it was. -/
theorem Memory.read_store_other (m : Memory) (kinds : MemMap) (a b : Word) (v : Byte) (h : b ≠ a ∨ kinds.kindAt b ≠ .ram) :
    (m.store kinds a v).read b = m.read b := by
  obtain ⟨hk, e⟩ | ⟨_, e⟩ := store_cases m kinds a v <;> rw [e]
  exact read_write_other m a b v fun hb => h.elim (· hb) fun hr => hr (hb ▸ hk)

theorem Memory.wf_store {m : Memory} (h : m.wf = true) (kinds : MemMap) (a : Word) (v : Byte) : (m.store kinds a v).wf = true := by
  obtain ⟨_, e⟩ | ⟨_, e⟩ := store_cases m kinds a v <;> rw [e]
  · exact wf_write h a v
  · exact h

/-- RAM and ROM: the byte there, whatever calls the core made. -/
theorem State.peek_of_ne_device {s : State} {a : Word} (h : s.memMap.kindAt a ≠ .device) : s.peek a = s.mem.read a := by
  unfold State.peek; split
  · rfl
  · rfl
  · exact absurd ‹_› h

/-- A read has no side effect that a byte of RAM or ROM shows. -/
theorem State.peekNext_of_ne_device {s : State} {b : Word} (h : s.memMap.kindAt b ≠ .device) (a : Word) : s.peekNext a b = s.peek b := by
  rw [State.peek_of_ne_device h]; exact State.peek_of_ne_device h

theorem State.reset_wf : State.reset.mem.wf = true := rfl

theorem State.memWrite_wf {s : State} (h : s.mem.wf = true) (a : Word) (v : Byte) : (s.memWrite a v).mem.wf = true := Memory.wf_store h _ a v

theorem State.memWrite16_wf {s : State} (h : s.mem.wf = true) (a v : Word) : (s.memWrite16 a v).mem.wf = true :=
  Memory.wf_store (Memory.wf_store h _ _ _) _ _ _

theorem State.push16_wf {s : State} (h : s.mem.wf = true) (v : Word) : (s.push16 v).mem.wf = true :=
  Memory.wf_store (Memory.wf_store h _ _ _) _ _ _

end Sys2Proof.Machine
end

