-- ==== Sys2Proof/Laws/State.lean ====
section
/-! SUPPORT. For each update of the state, what every field holds after it. The changed fields of an update that chooses among registers are
given by its own read (`reg8`, `pair`, ...), which a case split computes. -/

namespace Sys2Proof.Machine

/-! ## setBc -/

@[simp] theorem State.setBc_a (s : State) (v : Word) : (s.setBc v).a = s.a := rfl
@[simp] theorem State.setBc_f (s : State) (v : Word) : (s.setBc v).f = s.f := rfl
@[simp] theorem State.setBc_b (s : State) (v : Word) : (s.setBc v).b = hi v := rfl
@[simp] theorem State.setBc_c (s : State) (v : Word) : (s.setBc v).c = lo v := rfl
@[simp] theorem State.setBc_d (s : State) (v : Word) : (s.setBc v).d = s.d := rfl
@[simp] theorem State.setBc_e (s : State) (v : Word) : (s.setBc v).e = s.e := rfl
@[simp] theorem State.setBc_h (s : State) (v : Word) : (s.setBc v).h = s.h := rfl
@[simp] theorem State.setBc_l (s : State) (v : Word) : (s.setBc v).l = s.l := rfl
@[simp] theorem State.setBc_a_shadow (s : State) (v : Word) : (s.setBc v).a' = s.a' := rfl
@[simp] theorem State.setBc_f_shadow (s : State) (v : Word) : (s.setBc v).f' = s.f' := rfl
@[simp] theorem State.setBc_b_shadow (s : State) (v : Word) : (s.setBc v).b' = s.b' := rfl
@[simp] theorem State.setBc_c_shadow (s : State) (v : Word) : (s.setBc v).c' = s.c' := rfl
@[simp] theorem State.setBc_d_shadow (s : State) (v : Word) : (s.setBc v).d' = s.d' := rfl
@[simp] theorem State.setBc_e_shadow (s : State) (v : Word) : (s.setBc v).e' = s.e' := rfl
@[simp] theorem State.setBc_h_shadow (s : State) (v : Word) : (s.setBc v).h' = s.h' := rfl
@[simp] theorem State.setBc_l_shadow (s : State) (v : Word) : (s.setBc v).l' = s.l' := rfl
@[simp] theorem State.setBc_ix (s : State) (v : Word) : (s.setBc v).ix = s.ix := rfl
@[simp] theorem State.setBc_iy (s : State) (v : Word) : (s.setBc v).iy = s.iy := rfl
@[simp] theorem State.setBc_sp (s : State) (v : Word) : (s.setBc v).sp = s.sp := rfl
@[simp] theorem State.setBc_pc (s : State) (v : Word) : (s.setBc v).pc = s.pc := rfl
@[simp] theorem State.setBc_wz (s : State) (v : Word) : (s.setBc v).wz = s.wz := rfl
@[simp] theorem State.setBc_i (s : State) (v : Word) : (s.setBc v).i = s.i := rfl
@[simp] theorem State.setBc_r (s : State) (v : Word) : (s.setBc v).r = s.r := rfl
@[simp] theorem State.setBc_iff1 (s : State) (v : Word) : (s.setBc v).iff1 = s.iff1 := rfl
@[simp] theorem State.setBc_iff2 (s : State) (v : Word) : (s.setBc v).iff2 = s.iff2 := rfl
@[simp] theorem State.setBc_im (s : State) (v : Word) : (s.setBc v).im = s.im := rfl
@[simp] theorem State.setBc_halted (s : State) (v : Word) : (s.setBc v).halted = s.halted := rfl
@[simp] theorem State.setBc_eiDelay (s : State) (v : Word) : (s.setBc v).eiDelay = s.eiDelay := rfl
@[simp] theorem State.setBc_intPending (s : State) (v : Word) : (s.setBc v).intPending = s.intPending := rfl
@[simp] theorem State.setBc_intBus (s : State) (v : Word) : (s.setBc v).intBus = s.intBus := rfl
@[simp] theorem State.setBc_nmiPending (s : State) (v : Word) : (s.setBc v).nmiPending = s.nmiPending := rfl
@[simp] theorem State.setBc_tacts (s : State) (v : Word) : (s.setBc v).tacts = s.tacts := rfl
@[simp] theorem State.setBc_mem (s : State) (v : Word) : (s.setBc v).mem = s.mem := rfl
@[simp] theorem State.setBc_memMap (s : State) (v : Word) : (s.setBc v).memMap = s.memMap := rfl
@[simp] theorem State.setBc_portInputs (s : State) (v : Word) : (s.setBc v).portInputs = s.portInputs := rfl
@[simp] theorem State.setBc_portReads (s : State) (v : Word) : (s.setBc v).portReads = s.portReads := rfl
@[simp] theorem State.setBc_bus (s : State) (v : Word) : (s.setBc v).bus = s.bus := rfl
@[simp] theorem State.setBc_branchObserver (s : State) (v : Word) : (s.setBc v).branchObserver = s.branchObserver := rfl
@[simp] theorem State.setBc_stackObserver (s : State) (v : Word) : (s.setBc v).stackObserver = s.stackObserver := rfl
@[simp] theorem State.setBc_branchLog (s : State) (v : Word) : (s.setBc v).branchLog = s.branchLog := rfl
@[simp] theorem State.setBc_stackLog (s : State) (v : Word) : (s.setBc v).stackLog = s.stackLog := rfl
@[simp] theorem State.setBc_opAddr (s : State) (v : Word) : (s.setBc v).opAddr = s.opAddr := rfl
@[simp] theorem State.setBc_opTacts (s : State) (v : Word) : (s.setBc v).opTacts = s.opTacts := rfl
@[simp] theorem State.setBc_peek (s : State) (v : Word) (x : Word) : (s.setBc v).peek x = s.peek x := rfl

/-! ## setDe -/

@[simp] theorem State.setDe_a (s : State) (v : Word) : (s.setDe v).a = s.a := rfl
@[simp] theorem State.setDe_f (s : State) (v : Word) : (s.setDe v).f = s.f := rfl
@[simp] theorem State.setDe_b (s : State) (v : Word) : (s.setDe v).b = s.b := rfl
@[simp] theorem State.setDe_c (s : State) (v : Word) : (s.setDe v).c = s.c := rfl
@[simp] theorem State.setDe_d (s : State) (v : Word) : (s.setDe v).d = hi v := rfl
@[simp] theorem State.setDe_e (s : State) (v : Word) : (s.setDe v).e = lo v := rfl
@[simp] theorem State.setDe_h (s : State) (v : Word) : (s.setDe v).h = s.h := rfl
@[simp] theorem State.setDe_l (s : State) (v : Word) : (s.setDe v).l = s.l := rfl
@[simp] theorem State.setDe_a_shadow (s : State) (v : Word) : (s.setDe v).a' = s.a' := rfl
@[simp] theorem State.setDe_f_shadow (s : State) (v : Word) : (s.setDe v).f' = s.f' := rfl
@[simp] theorem State.setDe_b_shadow (s : State) (v : Word) : (s.setDe v).b' = s.b' := rfl
@[simp] theorem State.setDe_c_shadow (s : State) (v : Word) : (s.setDe v).c' = s.c' := rfl
@[simp] theorem State.setDe_d_shadow (s : State) (v : Word) : (s.setDe v).d' = s.d' := rfl
@[simp] theorem State.setDe_e_shadow (s : State) (v : Word) : (s.setDe v).e' = s.e' := rfl
@[simp] theorem State.setDe_h_shadow (s : State) (v : Word) : (s.setDe v).h' = s.h' := rfl
@[simp] theorem State.setDe_l_shadow (s : State) (v : Word) : (s.setDe v).l' = s.l' := rfl
@[simp] theorem State.setDe_ix (s : State) (v : Word) : (s.setDe v).ix = s.ix := rfl
@[simp] theorem State.setDe_iy (s : State) (v : Word) : (s.setDe v).iy = s.iy := rfl
@[simp] theorem State.setDe_sp (s : State) (v : Word) : (s.setDe v).sp = s.sp := rfl
@[simp] theorem State.setDe_pc (s : State) (v : Word) : (s.setDe v).pc = s.pc := rfl
@[simp] theorem State.setDe_wz (s : State) (v : Word) : (s.setDe v).wz = s.wz := rfl
@[simp] theorem State.setDe_i (s : State) (v : Word) : (s.setDe v).i = s.i := rfl
@[simp] theorem State.setDe_r (s : State) (v : Word) : (s.setDe v).r = s.r := rfl
@[simp] theorem State.setDe_iff1 (s : State) (v : Word) : (s.setDe v).iff1 = s.iff1 := rfl
@[simp] theorem State.setDe_iff2 (s : State) (v : Word) : (s.setDe v).iff2 = s.iff2 := rfl
@[simp] theorem State.setDe_im (s : State) (v : Word) : (s.setDe v).im = s.im := rfl
@[simp] theorem State.setDe_halted (s : State) (v : Word) : (s.setDe v).halted = s.halted := rfl
@[simp] theorem State.setDe_eiDelay (s : State) (v : Word) : (s.setDe v).eiDelay = s.eiDelay := rfl
@[simp] theorem State.setDe_intPending (s : State) (v : Word) : (s.setDe v).intPending = s.intPending := rfl
@[simp] theorem State.setDe_intBus (s : State) (v : Word) : (s.setDe v).intBus = s.intBus := rfl
@[simp] theorem State.setDe_nmiPending (s : State) (v : Word) : (s.setDe v).nmiPending = s.nmiPending := rfl
@[simp] theorem State.setDe_tacts (s : State) (v : Word) : (s.setDe v).tacts = s.tacts := rfl
@[simp] theorem State.setDe_mem (s : State) (v : Word) : (s.setDe v).mem = s.mem := rfl
@[simp] theorem State.setDe_memMap (s : State) (v : Word) : (s.setDe v).memMap = s.memMap := rfl
@[simp] theorem State.setDe_portInputs (s : State) (v : Word) : (s.setDe v).portInputs = s.portInputs := rfl
@[simp] theorem State.setDe_portReads (s : State) (v : Word) : (s.setDe v).portReads = s.portReads := rfl
@[simp] theorem State.setDe_bus (s : State) (v : Word) : (s.setDe v).bus = s.bus := rfl
@[simp] theorem State.setDe_branchObserver (s : State) (v : Word) : (s.setDe v).branchObserver = s.branchObserver := rfl
@[simp] theorem State.setDe_stackObserver (s : State) (v : Word) : (s.setDe v).stackObserver = s.stackObserver := rfl
@[simp] theorem State.setDe_branchLog (s : State) (v : Word) : (s.setDe v).branchLog = s.branchLog := rfl
@[simp] theorem State.setDe_stackLog (s : State) (v : Word) : (s.setDe v).stackLog = s.stackLog := rfl
@[simp] theorem State.setDe_opAddr (s : State) (v : Word) : (s.setDe v).opAddr = s.opAddr := rfl
@[simp] theorem State.setDe_opTacts (s : State) (v : Word) : (s.setDe v).opTacts = s.opTacts := rfl
@[simp] theorem State.setDe_peek (s : State) (v : Word) (x : Word) : (s.setDe v).peek x = s.peek x := rfl

/-! ## setHl -/

@[simp] theorem State.setHl_a (s : State) (v : Word) : (s.setHl v).a = s.a := rfl
@[simp] theorem State.setHl_f (s : State) (v : Word) : (s.setHl v).f = s.f := rfl
@[simp] theorem State.setHl_b (s : State) (v : Word) : (s.setHl v).b = s.b := rfl
@[simp] theorem State.setHl_c (s : State) (v : Word) : (s.setHl v).c = s.c := rfl
@[simp] theorem State.setHl_d (s : State) (v : Word) : (s.setHl v).d = s.d := rfl
@[simp] theorem State.setHl_e (s : State) (v : Word) : (s.setHl v).e = s.e := rfl
@[simp] theorem State.setHl_h (s : State) (v : Word) : (s.setHl v).h = hi v := rfl
@[simp] theorem State.setHl_l (s : State) (v : Word) : (s.setHl v).l = lo v := rfl
@[simp] theorem State.setHl_a_shadow (s : State) (v : Word) : (s.setHl v).a' = s.a' := rfl
@[simp] theorem State.setHl_f_shadow (s : State) (v : Word) : (s.setHl v).f' = s.f' := rfl
@[simp] theorem State.setHl_b_shadow (s : State) (v : Word) : (s.setHl v).b' = s.b' := rfl
@[simp] theorem State.setHl_c_shadow (s : State) (v : Word) : (s.setHl v).c' = s.c' := rfl
@[simp] theorem State.setHl_d_shadow (s : State) (v : Word) : (s.setHl v).d' = s.d' := rfl
@[simp] theorem State.setHl_e_shadow (s : State) (v : Word) : (s.setHl v).e' = s.e' := rfl
@[simp] theorem State.setHl_h_shadow (s : State) (v : Word) : (s.setHl v).h' = s.h' := rfl
@[simp] theorem State.setHl_l_shadow (s : State) (v : Word) : (s.setHl v).l' = s.l' := rfl
@[simp] theorem State.setHl_ix (s : State) (v : Word) : (s.setHl v).ix = s.ix := rfl
@[simp] theorem State.setHl_iy (s : State) (v : Word) : (s.setHl v).iy = s.iy := rfl
@[simp] theorem State.setHl_sp (s : State) (v : Word) : (s.setHl v).sp = s.sp := rfl
@[simp] theorem State.setHl_pc (s : State) (v : Word) : (s.setHl v).pc = s.pc := rfl
@[simp] theorem State.setHl_wz (s : State) (v : Word) : (s.setHl v).wz = s.wz := rfl
@[simp] theorem State.setHl_i (s : State) (v : Word) : (s.setHl v).i = s.i := rfl
@[simp] theorem State.setHl_r (s : State) (v : Word) : (s.setHl v).r = s.r := rfl
@[simp] theorem State.setHl_iff1 (s : State) (v : Word) : (s.setHl v).iff1 = s.iff1 := rfl
@[simp] theorem State.setHl_iff2 (s : State) (v : Word) : (s.setHl v).iff2 = s.iff2 := rfl
@[simp] theorem State.setHl_im (s : State) (v : Word) : (s.setHl v).im = s.im := rfl
@[simp] theorem State.setHl_halted (s : State) (v : Word) : (s.setHl v).halted = s.halted := rfl
@[simp] theorem State.setHl_eiDelay (s : State) (v : Word) : (s.setHl v).eiDelay = s.eiDelay := rfl
@[simp] theorem State.setHl_intPending (s : State) (v : Word) : (s.setHl v).intPending = s.intPending := rfl
@[simp] theorem State.setHl_intBus (s : State) (v : Word) : (s.setHl v).intBus = s.intBus := rfl
@[simp] theorem State.setHl_nmiPending (s : State) (v : Word) : (s.setHl v).nmiPending = s.nmiPending := rfl
@[simp] theorem State.setHl_tacts (s : State) (v : Word) : (s.setHl v).tacts = s.tacts := rfl
@[simp] theorem State.setHl_mem (s : State) (v : Word) : (s.setHl v).mem = s.mem := rfl
@[simp] theorem State.setHl_memMap (s : State) (v : Word) : (s.setHl v).memMap = s.memMap := rfl
@[simp] theorem State.setHl_portInputs (s : State) (v : Word) : (s.setHl v).portInputs = s.portInputs := rfl
@[simp] theorem State.setHl_portReads (s : State) (v : Word) : (s.setHl v).portReads = s.portReads := rfl
@[simp] theorem State.setHl_bus (s : State) (v : Word) : (s.setHl v).bus = s.bus := rfl
@[simp] theorem State.setHl_branchObserver (s : State) (v : Word) : (s.setHl v).branchObserver = s.branchObserver := rfl
@[simp] theorem State.setHl_stackObserver (s : State) (v : Word) : (s.setHl v).stackObserver = s.stackObserver := rfl
@[simp] theorem State.setHl_branchLog (s : State) (v : Word) : (s.setHl v).branchLog = s.branchLog := rfl
@[simp] theorem State.setHl_stackLog (s : State) (v : Word) : (s.setHl v).stackLog = s.stackLog := rfl
@[simp] theorem State.setHl_opAddr (s : State) (v : Word) : (s.setHl v).opAddr = s.opAddr := rfl
@[simp] theorem State.setHl_opTacts (s : State) (v : Word) : (s.setHl v).opTacts = s.opTacts := rfl
@[simp] theorem State.setHl_peek (s : State) (v : Word) (x : Word) : (s.setHl v).peek x = s.peek x := rfl

/-! ## setAf -/

@[simp] theorem State.setAf_a (s : State) (v : Word) : (s.setAf v).a = hi v := rfl
@[simp] theorem State.setAf_f (s : State) (v : Word) : (s.setAf v).f = lo v := rfl
@[simp] theorem State.setAf_b (s : State) (v : Word) : (s.setAf v).b = s.b := rfl
@[simp] theorem State.setAf_c (s : State) (v : Word) : (s.setAf v).c = s.c := rfl
@[simp] theorem State.setAf_d (s : State) (v : Word) : (s.setAf v).d = s.d := rfl
@[simp] theorem State.setAf_e (s : State) (v : Word) : (s.setAf v).e = s.e := rfl
@[simp] theorem State.setAf_h (s : State) (v : Word) : (s.setAf v).h = s.h := rfl
@[simp] theorem State.setAf_l (s : State) (v : Word) : (s.setAf v).l = s.l := rfl
@[simp] theorem State.setAf_a_shadow (s : State) (v : Word) : (s.setAf v).a' = s.a' := rfl
@[simp] theorem State.setAf_f_shadow (s : State) (v : Word) : (s.setAf v).f' = s.f' := rfl
@[simp] theorem State.setAf_b_shadow (s : State) (v : Word) : (s.setAf v).b' = s.b' := rfl
@[simp] theorem State.setAf_c_shadow (s : State) (v : Word) : (s.setAf v).c' = s.c' := rfl
@[simp] theorem State.setAf_d_shadow (s : State) (v : Word) : (s.setAf v).d' = s.d' := rfl
@[simp] theorem State.setAf_e_shadow (s : State) (v : Word) : (s.setAf v).e' = s.e' := rfl
@[simp] theorem State.setAf_h_shadow (s : State) (v : Word) : (s.setAf v).h' = s.h' := rfl
@[simp] theorem State.setAf_l_shadow (s : State) (v : Word) : (s.setAf v).l' = s.l' := rfl
@[simp] theorem State.setAf_ix (s : State) (v : Word) : (s.setAf v).ix = s.ix := rfl
@[simp] theorem State.setAf_iy (s : State) (v : Word) : (s.setAf v).iy = s.iy := rfl
@[simp] theorem State.setAf_sp (s : State) (v : Word) : (s.setAf v).sp = s.sp := rfl
@[simp] theorem State.setAf_pc (s : State) (v : Word) : (s.setAf v).pc = s.pc := rfl
@[simp] theorem State.setAf_wz (s : State) (v : Word) : (s.setAf v).wz = s.wz := rfl
@[simp] theorem State.setAf_i (s : State) (v : Word) : (s.setAf v).i = s.i := rfl
@[simp] theorem State.setAf_r (s : State) (v : Word) : (s.setAf v).r = s.r := rfl
@[simp] theorem State.setAf_iff1 (s : State) (v : Word) : (s.setAf v).iff1 = s.iff1 := rfl
@[simp] theorem State.setAf_iff2 (s : State) (v : Word) : (s.setAf v).iff2 = s.iff2 := rfl
@[simp] theorem State.setAf_im (s : State) (v : Word) : (s.setAf v).im = s.im := rfl
@[simp] theorem State.setAf_halted (s : State) (v : Word) : (s.setAf v).halted = s.halted := rfl
@[simp] theorem State.setAf_eiDelay (s : State) (v : Word) : (s.setAf v).eiDelay = s.eiDelay := rfl
@[simp] theorem State.setAf_intPending (s : State) (v : Word) : (s.setAf v).intPending = s.intPending := rfl
@[simp] theorem State.setAf_intBus (s : State) (v : Word) : (s.setAf v).intBus = s.intBus := rfl
@[simp] theorem State.setAf_nmiPending (s : State) (v : Word) : (s.setAf v).nmiPending = s.nmiPending := rfl
@[simp] theorem State.setAf_tacts (s : State) (v : Word) : (s.setAf v).tacts = s.tacts := rfl
@[simp] theorem State.setAf_mem (s : State) (v : Word) : (s.setAf v).mem = s.mem := rfl
@[simp] theorem State.setAf_memMap (s : State) (v : Word) : (s.setAf v).memMap = s.memMap := rfl
@[simp] theorem State.setAf_portInputs (s : State) (v : Word) : (s.setAf v).portInputs = s.portInputs := rfl
@[simp] theorem State.setAf_portReads (s : State) (v : Word) : (s.setAf v).portReads = s.portReads := rfl
@[simp] theorem State.setAf_bus (s : State) (v : Word) : (s.setAf v).bus = s.bus := rfl
@[simp] theorem State.setAf_branchObserver (s : State) (v : Word) : (s.setAf v).branchObserver = s.branchObserver := rfl
@[simp] theorem State.setAf_stackObserver (s : State) (v : Word) : (s.setAf v).stackObserver = s.stackObserver := rfl
@[simp] theorem State.setAf_branchLog (s : State) (v : Word) : (s.setAf v).branchLog = s.branchLog := rfl
@[simp] theorem State.setAf_stackLog (s : State) (v : Word) : (s.setAf v).stackLog = s.stackLog := rfl
@[simp] theorem State.setAf_opAddr (s : State) (v : Word) : (s.setAf v).opAddr = s.opAddr := rfl
@[simp] theorem State.setAf_opTacts (s : State) (v : Word) : (s.setAf v).opTacts = s.opTacts := rfl
@[simp] theorem State.setAf_peek (s : State) (v : Word) (x : Word) : (s.setAf v).peek x = s.peek x := rfl

/-! ## setFlags -/

@[simp] theorem State.setFlags_a (s : State) (g : Flags) : (s.setFlags g).a = s.a := rfl
@[simp] theorem State.setFlags_f (s : State) (g : Flags) : (s.setFlags g).f = g.toByte := rfl
@[simp] theorem State.setFlags_b (s : State) (g : Flags) : (s.setFlags g).b = s.b := rfl
@[simp] theorem State.setFlags_c (s : State) (g : Flags) : (s.setFlags g).c = s.c := rfl
@[simp] theorem State.setFlags_d (s : State) (g : Flags) : (s.setFlags g).d = s.d := rfl
@[simp] theorem State.setFlags_e (s : State) (g : Flags) : (s.setFlags g).e = s.e := rfl
@[simp] theorem State.setFlags_h (s : State) (g : Flags) : (s.setFlags g).h = s.h := rfl
@[simp] theorem State.setFlags_l (s : State) (g : Flags) : (s.setFlags g).l = s.l := rfl
@[simp] theorem State.setFlags_a_shadow (s : State) (g : Flags) : (s.setFlags g).a' = s.a' := rfl
@[simp] theorem State.setFlags_f_shadow (s : State) (g : Flags) : (s.setFlags g).f' = s.f' := rfl
@[simp] theorem State.setFlags_b_shadow (s : State) (g : Flags) : (s.setFlags g).b' = s.b' := rfl
@[simp] theorem State.setFlags_c_shadow (s : State) (g : Flags) : (s.setFlags g).c' = s.c' := rfl
@[simp] theorem State.setFlags_d_shadow (s : State) (g : Flags) : (s.setFlags g).d' = s.d' := rfl
@[simp] theorem State.setFlags_e_shadow (s : State) (g : Flags) : (s.setFlags g).e' = s.e' := rfl
@[simp] theorem State.setFlags_h_shadow (s : State) (g : Flags) : (s.setFlags g).h' = s.h' := rfl
@[simp] theorem State.setFlags_l_shadow (s : State) (g : Flags) : (s.setFlags g).l' = s.l' := rfl
@[simp] theorem State.setFlags_ix (s : State) (g : Flags) : (s.setFlags g).ix = s.ix := rfl
@[simp] theorem State.setFlags_iy (s : State) (g : Flags) : (s.setFlags g).iy = s.iy := rfl
@[simp] theorem State.setFlags_sp (s : State) (g : Flags) : (s.setFlags g).sp = s.sp := rfl
@[simp] theorem State.setFlags_pc (s : State) (g : Flags) : (s.setFlags g).pc = s.pc := rfl
@[simp] theorem State.setFlags_wz (s : State) (g : Flags) : (s.setFlags g).wz = s.wz := rfl
@[simp] theorem State.setFlags_i (s : State) (g : Flags) : (s.setFlags g).i = s.i := rfl
@[simp] theorem State.setFlags_r (s : State) (g : Flags) : (s.setFlags g).r = s.r := rfl
@[simp] theorem State.setFlags_iff1 (s : State) (g : Flags) : (s.setFlags g).iff1 = s.iff1 := rfl
@[simp] theorem State.setFlags_iff2 (s : State) (g : Flags) : (s.setFlags g).iff2 = s.iff2 := rfl
@[simp] theorem State.setFlags_im (s : State) (g : Flags) : (s.setFlags g).im = s.im := rfl
@[simp] theorem State.setFlags_halted (s : State) (g : Flags) : (s.setFlags g).halted = s.halted := rfl
@[simp] theorem State.setFlags_eiDelay (s : State) (g : Flags) : (s.setFlags g).eiDelay = s.eiDelay := rfl
@[simp] theorem State.setFlags_intPending (s : State) (g : Flags) : (s.setFlags g).intPending = s.intPending := rfl
@[simp] theorem State.setFlags_intBus (s : State) (g : Flags) : (s.setFlags g).intBus = s.intBus := rfl
@[simp] theorem State.setFlags_nmiPending (s : State) (g : Flags) : (s.setFlags g).nmiPending = s.nmiPending := rfl
@[simp] theorem State.setFlags_tacts (s : State) (g : Flags) : (s.setFlags g).tacts = s.tacts := rfl
@[simp] theorem State.setFlags_mem (s : State) (g : Flags) : (s.setFlags g).mem = s.mem := rfl
@[simp] theorem State.setFlags_memMap (s : State) (g : Flags) : (s.setFlags g).memMap = s.memMap := rfl
@[simp] theorem State.setFlags_portInputs (s : State) (g : Flags) : (s.setFlags g).portInputs = s.portInputs := rfl
@[simp] theorem State.setFlags_portReads (s : State) (g : Flags) : (s.setFlags g).portReads = s.portReads := rfl
@[simp] theorem State.setFlags_bus (s : State) (g : Flags) : (s.setFlags g).bus = s.bus := rfl
@[simp] theorem State.setFlags_branchObserver (s : State) (g : Flags) : (s.setFlags g).branchObserver = s.branchObserver := rfl
@[simp] theorem State.setFlags_stackObserver (s : State) (g : Flags) : (s.setFlags g).stackObserver = s.stackObserver := rfl
@[simp] theorem State.setFlags_branchLog (s : State) (g : Flags) : (s.setFlags g).branchLog = s.branchLog := rfl
@[simp] theorem State.setFlags_stackLog (s : State) (g : Flags) : (s.setFlags g).stackLog = s.stackLog := rfl
@[simp] theorem State.setFlags_opAddr (s : State) (g : Flags) : (s.setFlags g).opAddr = s.opAddr := rfl
@[simp] theorem State.setFlags_opTacts (s : State) (g : Flags) : (s.setFlags g).opTacts = s.opTacts := rfl
@[simp] theorem State.setFlags_peek (s : State) (g : Flags) (x : Word) : (s.setFlags g).peek x = s.peek x := rfl

/-! ## note -/

@[simp] theorem State.note_a (s : State) (x : BusEvent) : (s.note x).a = s.a := rfl
@[simp] theorem State.note_f (s : State) (x : BusEvent) : (s.note x).f = s.f := rfl
@[simp] theorem State.note_b (s : State) (x : BusEvent) : (s.note x).b = s.b := rfl
@[simp] theorem State.note_c (s : State) (x : BusEvent) : (s.note x).c = s.c := rfl
@[simp] theorem State.note_d (s : State) (x : BusEvent) : (s.note x).d = s.d := rfl
@[simp] theorem State.note_e (s : State) (x : BusEvent) : (s.note x).e = s.e := rfl
@[simp] theorem State.note_h (s : State) (x : BusEvent) : (s.note x).h = s.h := rfl
@[simp] theorem State.note_l (s : State) (x : BusEvent) : (s.note x).l = s.l := rfl
@[simp] theorem State.note_a_shadow (s : State) (x : BusEvent) : (s.note x).a' = s.a' := rfl
@[simp] theorem State.note_f_shadow (s : State) (x : BusEvent) : (s.note x).f' = s.f' := rfl
@[simp] theorem State.note_b_shadow (s : State) (x : BusEvent) : (s.note x).b' = s.b' := rfl
@[simp] theorem State.note_c_shadow (s : State) (x : BusEvent) : (s.note x).c' = s.c' := rfl
@[simp] theorem State.note_d_shadow (s : State) (x : BusEvent) : (s.note x).d' = s.d' := rfl
@[simp] theorem State.note_e_shadow (s : State) (x : BusEvent) : (s.note x).e' = s.e' := rfl
@[simp] theorem State.note_h_shadow (s : State) (x : BusEvent) : (s.note x).h' = s.h' := rfl
@[simp] theorem State.note_l_shadow (s : State) (x : BusEvent) : (s.note x).l' = s.l' := rfl
@[simp] theorem State.note_ix (s : State) (x : BusEvent) : (s.note x).ix = s.ix := rfl
@[simp] theorem State.note_iy (s : State) (x : BusEvent) : (s.note x).iy = s.iy := rfl
@[simp] theorem State.note_sp (s : State) (x : BusEvent) : (s.note x).sp = s.sp := rfl
@[simp] theorem State.note_pc (s : State) (x : BusEvent) : (s.note x).pc = s.pc := rfl
@[simp] theorem State.note_wz (s : State) (x : BusEvent) : (s.note x).wz = s.wz := rfl
@[simp] theorem State.note_i (s : State) (x : BusEvent) : (s.note x).i = s.i := rfl
@[simp] theorem State.note_r (s : State) (x : BusEvent) : (s.note x).r = s.r := rfl
@[simp] theorem State.note_iff1 (s : State) (x : BusEvent) : (s.note x).iff1 = s.iff1 := rfl
@[simp] theorem State.note_iff2 (s : State) (x : BusEvent) : (s.note x).iff2 = s.iff2 := rfl
@[simp] theorem State.note_im (s : State) (x : BusEvent) : (s.note x).im = s.im := rfl
@[simp] theorem State.note_halted (s : State) (x : BusEvent) : (s.note x).halted = s.halted := rfl
@[simp] theorem State.note_eiDelay (s : State) (x : BusEvent) : (s.note x).eiDelay = s.eiDelay := rfl
@[simp] theorem State.note_intPending (s : State) (x : BusEvent) : (s.note x).intPending = s.intPending := rfl
@[simp] theorem State.note_intBus (s : State) (x : BusEvent) : (s.note x).intBus = s.intBus := rfl
@[simp] theorem State.note_nmiPending (s : State) (x : BusEvent) : (s.note x).nmiPending = s.nmiPending := rfl
@[simp] theorem State.note_tacts (s : State) (x : BusEvent) : (s.note x).tacts = s.tacts := rfl
@[simp] theorem State.note_mem (s : State) (x : BusEvent) : (s.note x).mem = s.mem := rfl
@[simp] theorem State.note_memMap (s : State) (x : BusEvent) : (s.note x).memMap = s.memMap := rfl
@[simp] theorem State.note_portInputs (s : State) (x : BusEvent) : (s.note x).portInputs = s.portInputs := rfl
@[simp] theorem State.note_portReads (s : State) (x : BusEvent) : (s.note x).portReads = s.portReads := rfl
@[simp] theorem State.note_bus (s : State) (x : BusEvent) : (s.note x).bus = x :: s.bus := rfl
@[simp] theorem State.note_branchObserver (s : State) (x : BusEvent) : (s.note x).branchObserver = s.branchObserver := rfl
@[simp] theorem State.note_stackObserver (s : State) (x : BusEvent) : (s.note x).stackObserver = s.stackObserver := rfl
@[simp] theorem State.note_branchLog (s : State) (x : BusEvent) : (s.note x).branchLog = s.branchLog := rfl
@[simp] theorem State.note_stackLog (s : State) (x : BusEvent) : (s.note x).stackLog = s.stackLog := rfl
@[simp] theorem State.note_opAddr (s : State) (x : BusEvent) : (s.note x).opAddr = s.opAddr := rfl
@[simp] theorem State.note_opTacts (s : State) (x : BusEvent) : (s.note x).opTacts = s.opTacts := rfl

/-! ## memWrite -/

@[simp] theorem State.memWrite_a (s : State) (p : Word) (v : Byte) : (s.memWrite p v).a = s.a := rfl
@[simp] theorem State.memWrite_f (s : State) (p : Word) (v : Byte) : (s.memWrite p v).f = s.f := rfl
@[simp] theorem State.memWrite_b (s : State) (p : Word) (v : Byte) : (s.memWrite p v).b = s.b := rfl
@[simp] theorem State.memWrite_c (s : State) (p : Word) (v : Byte) : (s.memWrite p v).c = s.c := rfl
@[simp] theorem State.memWrite_d (s : State) (p : Word) (v : Byte) : (s.memWrite p v).d = s.d := rfl
@[simp] theorem State.memWrite_e (s : State) (p : Word) (v : Byte) : (s.memWrite p v).e = s.e := rfl
@[simp] theorem State.memWrite_h (s : State) (p : Word) (v : Byte) : (s.memWrite p v).h = s.h := rfl
@[simp] theorem State.memWrite_l (s : State) (p : Word) (v : Byte) : (s.memWrite p v).l = s.l := rfl
@[simp] theorem State.memWrite_a_shadow (s : State) (p : Word) (v : Byte) : (s.memWrite p v).a' = s.a' := rfl
@[simp] theorem State.memWrite_f_shadow (s : State) (p : Word) (v : Byte) : (s.memWrite p v).f' = s.f' := rfl
@[simp] theorem State.memWrite_b_shadow (s : State) (p : Word) (v : Byte) : (s.memWrite p v).b' = s.b' := rfl
@[simp] theorem State.memWrite_c_shadow (s : State) (p : Word) (v : Byte) : (s.memWrite p v).c' = s.c' := rfl
@[simp] theorem State.memWrite_d_shadow (s : State) (p : Word) (v : Byte) : (s.memWrite p v).d' = s.d' := rfl
@[simp] theorem State.memWrite_e_shadow (s : State) (p : Word) (v : Byte) : (s.memWrite p v).e' = s.e' := rfl
@[simp] theorem State.memWrite_h_shadow (s : State) (p : Word) (v : Byte) : (s.memWrite p v).h' = s.h' := rfl
@[simp] theorem State.memWrite_l_shadow (s : State) (p : Word) (v : Byte) : (s.memWrite p v).l' = s.l' := rfl
@[simp] theorem State.memWrite_ix (s : State) (p : Word) (v : Byte) : (s.memWrite p v).ix = s.ix := rfl
@[simp] theorem State.memWrite_iy (s : State) (p : Word) (v : Byte) : (s.memWrite p v).iy = s.iy := rfl
@[simp] theorem State.memWrite_sp (s : State) (p : Word) (v : Byte) : (s.memWrite p v).sp = s.sp := rfl
@[simp] theorem State.memWrite_pc (s : State) (p : Word) (v : Byte) : (s.memWrite p v).pc = s.pc := rfl
@[simp] theorem State.memWrite_wz (s : State) (p : Word) (v : Byte) : (s.memWrite p v).wz = s.wz := rfl
@[simp] theorem State.memWrite_i (s : State) (p : Word) (v : Byte) : (s.memWrite p v).i = s.i := rfl
@[simp] theorem State.memWrite_r (s : State) (p : Word) (v : Byte) : (s.memWrite p v).r = s.r := rfl
@[simp] theorem State.memWrite_iff1 (s : State) (p : Word) (v : Byte) : (s.memWrite p v).iff1 = s.iff1 := rfl
@[simp] theorem State.memWrite_iff2 (s : State) (p : Word) (v : Byte) : (s.memWrite p v).iff2 = s.iff2 := rfl
@[simp] theorem State.memWrite_im (s : State) (p : Word) (v : Byte) : (s.memWrite p v).im = s.im := rfl
@[simp] theorem State.memWrite_halted (s : State) (p : Word) (v : Byte) : (s.memWrite p v).halted = s.halted := rfl
@[simp] theorem State.memWrite_eiDelay (s : State) (p : Word) (v : Byte) : (s.memWrite p v).eiDelay = s.eiDelay := rfl
@[simp] theorem State.memWrite_intPending (s : State) (p : Word) (v : Byte) : (s.memWrite p v).intPending = s.intPending := rfl
@[simp] theorem State.memWrite_intBus (s : State) (p : Word) (v : Byte) : (s.memWrite p v).intBus = s.intBus := rfl
@[simp] theorem State.memWrite_nmiPending (s : State) (p : Word) (v : Byte) : (s.memWrite p v).nmiPending = s.nmiPending := rfl
@[simp] theorem State.memWrite_tacts (s : State) (p : Word) (v : Byte) : (s.memWrite p v).tacts = s.tacts := rfl
@[simp] theorem State.memWrite_mem (s : State) (p : Word) (v : Byte) : (s.memWrite p v).mem = s.mem.store s.memMap p v := rfl
@[simp] theorem State.memWrite_memMap (s : State) (p : Word) (v : Byte) : (s.memWrite p v).memMap = s.memMap := rfl
@[simp] theorem State.memWrite_portInputs (s : State) (p : Word) (v : Byte) : (s.memWrite p v).portInputs = s.portInputs := rfl
@[simp] theorem State.memWrite_portReads (s : State) (p : Word) (v : Byte) : (s.memWrite p v).portReads = s.portReads := rfl
@[simp] theorem State.memWrite_bus (s : State) (p : Word) (v : Byte) : (s.memWrite p v).bus = .writeByte p v :: s.bus := rfl
@[simp] theorem State.memWrite_branchObserver (s : State) (p : Word) (v : Byte) : (s.memWrite p v).branchObserver = s.branchObserver := rfl
@[simp] theorem State.memWrite_stackObserver (s : State) (p : Word) (v : Byte) : (s.memWrite p v).stackObserver = s.stackObserver := rfl
@[simp] theorem State.memWrite_branchLog (s : State) (p : Word) (v : Byte) : (s.memWrite p v).branchLog = s.branchLog := rfl
@[simp] theorem State.memWrite_stackLog (s : State) (p : Word) (v : Byte) : (s.memWrite p v).stackLog = s.stackLog := rfl
@[simp] theorem State.memWrite_opAddr (s : State) (p : Word) (v : Byte) : (s.memWrite p v).opAddr = s.opAddr := rfl
@[simp] theorem State.memWrite_opTacts (s : State) (p : Word) (v : Byte) : (s.memWrite p v).opTacts = s.opTacts := rfl

/-! ## tick -/

@[simp] theorem State.tick_a (s : State) (n : Nat) : (s.tick n).a = s.a := rfl
@[simp] theorem State.tick_f (s : State) (n : Nat) : (s.tick n).f = s.f := rfl
@[simp] theorem State.tick_b (s : State) (n : Nat) : (s.tick n).b = s.b := rfl
@[simp] theorem State.tick_c (s : State) (n : Nat) : (s.tick n).c = s.c := rfl
@[simp] theorem State.tick_d (s : State) (n : Nat) : (s.tick n).d = s.d := rfl
@[simp] theorem State.tick_e (s : State) (n : Nat) : (s.tick n).e = s.e := rfl
@[simp] theorem State.tick_h (s : State) (n : Nat) : (s.tick n).h = s.h := rfl
@[simp] theorem State.tick_l (s : State) (n : Nat) : (s.tick n).l = s.l := rfl
@[simp] theorem State.tick_a_shadow (s : State) (n : Nat) : (s.tick n).a' = s.a' := rfl
@[simp] theorem State.tick_f_shadow (s : State) (n : Nat) : (s.tick n).f' = s.f' := rfl
@[simp] theorem State.tick_b_shadow (s : State) (n : Nat) : (s.tick n).b' = s.b' := rfl
@[simp] theorem State.tick_c_shadow (s : State) (n : Nat) : (s.tick n).c' = s.c' := rfl
@[simp] theorem State.tick_d_shadow (s : State) (n : Nat) : (s.tick n).d' = s.d' := rfl
@[simp] theorem State.tick_e_shadow (s : State) (n : Nat) : (s.tick n).e' = s.e' := rfl
@[simp] theorem State.tick_h_shadow (s : State) (n : Nat) : (s.tick n).h' = s.h' := rfl
@[simp] theorem State.tick_l_shadow (s : State) (n : Nat) : (s.tick n).l' = s.l' := rfl
@[simp] theorem State.tick_ix (s : State) (n : Nat) : (s.tick n).ix = s.ix := rfl
@[simp] theorem State.tick_iy (s : State) (n : Nat) : (s.tick n).iy = s.iy := rfl
@[simp] theorem State.tick_sp (s : State) (n : Nat) : (s.tick n).sp = s.sp := rfl
@[simp] theorem State.tick_pc (s : State) (n : Nat) : (s.tick n).pc = s.pc := rfl
@[simp] theorem State.tick_wz (s : State) (n : Nat) : (s.tick n).wz = s.wz := rfl
@[simp] theorem State.tick_i (s : State) (n : Nat) : (s.tick n).i = s.i := rfl
@[simp] theorem State.tick_r (s : State) (n : Nat) : (s.tick n).r = s.r := rfl
@[simp] theorem State.tick_iff1 (s : State) (n : Nat) : (s.tick n).iff1 = s.iff1 := rfl
@[simp] theorem State.tick_iff2 (s : State) (n : Nat) : (s.tick n).iff2 = s.iff2 := rfl
@[simp] theorem State.tick_im (s : State) (n : Nat) : (s.tick n).im = s.im := rfl
@[simp] theorem State.tick_halted (s : State) (n : Nat) : (s.tick n).halted = s.halted := rfl
@[simp] theorem State.tick_eiDelay (s : State) (n : Nat) : (s.tick n).eiDelay = s.eiDelay := rfl
@[simp] theorem State.tick_intPending (s : State) (n : Nat) : (s.tick n).intPending = s.intPending := rfl
@[simp] theorem State.tick_intBus (s : State) (n : Nat) : (s.tick n).intBus = s.intBus := rfl
@[simp] theorem State.tick_nmiPending (s : State) (n : Nat) : (s.tick n).nmiPending = s.nmiPending := rfl
@[simp] theorem State.tick_tacts (s : State) (n : Nat) : (s.tick n).tacts = s.tacts + n := rfl
@[simp] theorem State.tick_mem (s : State) (n : Nat) : (s.tick n).mem = s.mem := rfl
@[simp] theorem State.tick_memMap (s : State) (n : Nat) : (s.tick n).memMap = s.memMap := rfl
@[simp] theorem State.tick_portInputs (s : State) (n : Nat) : (s.tick n).portInputs = s.portInputs := rfl
@[simp] theorem State.tick_portReads (s : State) (n : Nat) : (s.tick n).portReads = s.portReads := rfl
@[simp] theorem State.tick_bus (s : State) (n : Nat) : (s.tick n).bus = s.bus := rfl
@[simp] theorem State.tick_branchObserver (s : State) (n : Nat) : (s.tick n).branchObserver = s.branchObserver := rfl
@[simp] theorem State.tick_stackObserver (s : State) (n : Nat) : (s.tick n).stackObserver = s.stackObserver := rfl
@[simp] theorem State.tick_branchLog (s : State) (n : Nat) : (s.tick n).branchLog = s.branchLog := rfl
@[simp] theorem State.tick_stackLog (s : State) (n : Nat) : (s.tick n).stackLog = s.stackLog := rfl
@[simp] theorem State.tick_opAddr (s : State) (n : Nat) : (s.tick n).opAddr = s.opAddr := rfl
@[simp] theorem State.tick_opTacts (s : State) (n : Nat) : (s.tick n).opTacts = s.opTacts := rfl
@[simp] theorem State.tick_peek (s : State) (n : Nat) (x : Word) : (s.tick n).peek x = s.peek x := rfl

/-! ## bumpR -/

@[simp] theorem State.bumpR_a (s : State) : (s.bumpR).a = s.a := rfl
@[simp] theorem State.bumpR_f (s : State) : (s.bumpR).f = s.f := rfl
@[simp] theorem State.bumpR_b (s : State) : (s.bumpR).b = s.b := rfl
@[simp] theorem State.bumpR_c (s : State) : (s.bumpR).c = s.c := rfl
@[simp] theorem State.bumpR_d (s : State) : (s.bumpR).d = s.d := rfl
@[simp] theorem State.bumpR_e (s : State) : (s.bumpR).e = s.e := rfl
@[simp] theorem State.bumpR_h (s : State) : (s.bumpR).h = s.h := rfl
@[simp] theorem State.bumpR_l (s : State) : (s.bumpR).l = s.l := rfl
@[simp] theorem State.bumpR_a_shadow (s : State) : (s.bumpR).a' = s.a' := rfl
@[simp] theorem State.bumpR_f_shadow (s : State) : (s.bumpR).f' = s.f' := rfl
@[simp] theorem State.bumpR_b_shadow (s : State) : (s.bumpR).b' = s.b' := rfl
@[simp] theorem State.bumpR_c_shadow (s : State) : (s.bumpR).c' = s.c' := rfl
@[simp] theorem State.bumpR_d_shadow (s : State) : (s.bumpR).d' = s.d' := rfl
@[simp] theorem State.bumpR_e_shadow (s : State) : (s.bumpR).e' = s.e' := rfl
@[simp] theorem State.bumpR_h_shadow (s : State) : (s.bumpR).h' = s.h' := rfl
@[simp] theorem State.bumpR_l_shadow (s : State) : (s.bumpR).l' = s.l' := rfl
@[simp] theorem State.bumpR_ix (s : State) : (s.bumpR).ix = s.ix := rfl
@[simp] theorem State.bumpR_iy (s : State) : (s.bumpR).iy = s.iy := rfl
@[simp] theorem State.bumpR_sp (s : State) : (s.bumpR).sp = s.sp := rfl
@[simp] theorem State.bumpR_pc (s : State) : (s.bumpR).pc = s.pc := rfl
@[simp] theorem State.bumpR_wz (s : State) : (s.bumpR).wz = s.wz := rfl
@[simp] theorem State.bumpR_i (s : State) : (s.bumpR).i = s.i := rfl
@[simp] theorem State.bumpR_r (s : State) : (s.bumpR).r = countR s.r := rfl
@[simp] theorem State.bumpR_iff1 (s : State) : (s.bumpR).iff1 = s.iff1 := rfl
@[simp] theorem State.bumpR_iff2 (s : State) : (s.bumpR).iff2 = s.iff2 := rfl
@[simp] theorem State.bumpR_im (s : State) : (s.bumpR).im = s.im := rfl
@[simp] theorem State.bumpR_halted (s : State) : (s.bumpR).halted = s.halted := rfl
@[simp] theorem State.bumpR_eiDelay (s : State) : (s.bumpR).eiDelay = s.eiDelay := rfl
@[simp] theorem State.bumpR_intPending (s : State) : (s.bumpR).intPending = s.intPending := rfl
@[simp] theorem State.bumpR_intBus (s : State) : (s.bumpR).intBus = s.intBus := rfl
@[simp] theorem State.bumpR_nmiPending (s : State) : (s.bumpR).nmiPending = s.nmiPending := rfl
@[simp] theorem State.bumpR_tacts (s : State) : (s.bumpR).tacts = s.tacts := rfl
@[simp] theorem State.bumpR_mem (s : State) : (s.bumpR).mem = s.mem := rfl
@[simp] theorem State.bumpR_memMap (s : State) : (s.bumpR).memMap = s.memMap := rfl
@[simp] theorem State.bumpR_portInputs (s : State) : (s.bumpR).portInputs = s.portInputs := rfl
@[simp] theorem State.bumpR_portReads (s : State) : (s.bumpR).portReads = s.portReads := rfl
@[simp] theorem State.bumpR_bus (s : State) : (s.bumpR).bus = s.bus := rfl
@[simp] theorem State.bumpR_branchObserver (s : State) : (s.bumpR).branchObserver = s.branchObserver := rfl
@[simp] theorem State.bumpR_stackObserver (s : State) : (s.bumpR).stackObserver = s.stackObserver := rfl
@[simp] theorem State.bumpR_branchLog (s : State) : (s.bumpR).branchLog = s.branchLog := rfl
@[simp] theorem State.bumpR_stackLog (s : State) : (s.bumpR).stackLog = s.stackLog := rfl
@[simp] theorem State.bumpR_opAddr (s : State) : (s.bumpR).opAddr = s.opAddr := rfl
@[simp] theorem State.bumpR_opTacts (s : State) : (s.bumpR).opTacts = s.opTacts := rfl
@[simp] theorem State.bumpR_peek (s : State) (x : Word) : (s.bumpR).peek x = s.peek x := rfl

/-! ## fetchByte -/

@[simp] theorem State.fetchByte_a (s : State) : (s.fetchByte).a = s.a := rfl
@[simp] theorem State.fetchByte_f (s : State) : (s.fetchByte).f = s.f := rfl
@[simp] theorem State.fetchByte_b (s : State) : (s.fetchByte).b = s.b := rfl
@[simp] theorem State.fetchByte_c (s : State) : (s.fetchByte).c = s.c := rfl
@[simp] theorem State.fetchByte_d (s : State) : (s.fetchByte).d = s.d := rfl
@[simp] theorem State.fetchByte_e (s : State) : (s.fetchByte).e = s.e := rfl
@[simp] theorem State.fetchByte_h (s : State) : (s.fetchByte).h = s.h := rfl
@[simp] theorem State.fetchByte_l (s : State) : (s.fetchByte).l = s.l := rfl
@[simp] theorem State.fetchByte_a_shadow (s : State) : (s.fetchByte).a' = s.a' := rfl
@[simp] theorem State.fetchByte_f_shadow (s : State) : (s.fetchByte).f' = s.f' := rfl
@[simp] theorem State.fetchByte_b_shadow (s : State) : (s.fetchByte).b' = s.b' := rfl
@[simp] theorem State.fetchByte_c_shadow (s : State) : (s.fetchByte).c' = s.c' := rfl
@[simp] theorem State.fetchByte_d_shadow (s : State) : (s.fetchByte).d' = s.d' := rfl
@[simp] theorem State.fetchByte_e_shadow (s : State) : (s.fetchByte).e' = s.e' := rfl
@[simp] theorem State.fetchByte_h_shadow (s : State) : (s.fetchByte).h' = s.h' := rfl
@[simp] theorem State.fetchByte_l_shadow (s : State) : (s.fetchByte).l' = s.l' := rfl
@[simp] theorem State.fetchByte_ix (s : State) : (s.fetchByte).ix = s.ix := rfl
@[simp] theorem State.fetchByte_iy (s : State) : (s.fetchByte).iy = s.iy := rfl
@[simp] theorem State.fetchByte_sp (s : State) : (s.fetchByte).sp = s.sp := rfl
@[simp] theorem State.fetchByte_pc (s : State) : (s.fetchByte).pc = s.pc + 1 := rfl
@[simp] theorem State.fetchByte_wz (s : State) : (s.fetchByte).wz = s.wz := rfl
@[simp] theorem State.fetchByte_i (s : State) : (s.fetchByte).i = s.i := rfl
@[simp] theorem State.fetchByte_r (s : State) : (s.fetchByte).r = s.r := rfl
@[simp] theorem State.fetchByte_iff1 (s : State) : (s.fetchByte).iff1 = s.iff1 := rfl
@[simp] theorem State.fetchByte_iff2 (s : State) : (s.fetchByte).iff2 = s.iff2 := rfl
@[simp] theorem State.fetchByte_im (s : State) : (s.fetchByte).im = s.im := rfl
@[simp] theorem State.fetchByte_halted (s : State) : (s.fetchByte).halted = s.halted := rfl
@[simp] theorem State.fetchByte_eiDelay (s : State) : (s.fetchByte).eiDelay = s.eiDelay := rfl
@[simp] theorem State.fetchByte_intPending (s : State) : (s.fetchByte).intPending = s.intPending := rfl
@[simp] theorem State.fetchByte_intBus (s : State) : (s.fetchByte).intBus = s.intBus := rfl
@[simp] theorem State.fetchByte_nmiPending (s : State) : (s.fetchByte).nmiPending = s.nmiPending := rfl
@[simp] theorem State.fetchByte_tacts (s : State) : (s.fetchByte).tacts = s.tacts := rfl
@[simp] theorem State.fetchByte_mem (s : State) : (s.fetchByte).mem = s.mem := rfl
@[simp] theorem State.fetchByte_memMap (s : State) : (s.fetchByte).memMap = s.memMap := rfl
@[simp] theorem State.fetchByte_portInputs (s : State) : (s.fetchByte).portInputs = s.portInputs := rfl
@[simp] theorem State.fetchByte_portReads (s : State) : (s.fetchByte).portReads = s.portReads := rfl
@[simp] theorem State.fetchByte_bus (s : State) : (s.fetchByte).bus = .readByte s.pc (s.peek s.pc) :: s.bus := rfl
@[simp] theorem State.fetchByte_branchObserver (s : State) : (s.fetchByte).branchObserver = s.branchObserver := rfl
@[simp] theorem State.fetchByte_stackObserver (s : State) : (s.fetchByte).stackObserver = s.stackObserver := rfl
@[simp] theorem State.fetchByte_branchLog (s : State) : (s.fetchByte).branchLog = s.branchLog := rfl
@[simp] theorem State.fetchByte_stackLog (s : State) : (s.fetchByte).stackLog = s.stackLog := rfl
@[simp] theorem State.fetchByte_opAddr (s : State) : (s.fetchByte).opAddr = s.opAddr := rfl
@[simp] theorem State.fetchByte_opTacts (s : State) : (s.fetchByte).opTacts = s.opTacts := rfl

/-! ## latch -/

@[simp] theorem State.latch_a (s : State) : (s.latch).a = s.a := rfl
@[simp] theorem State.latch_f (s : State) : (s.latch).f = s.f := rfl
@[simp] theorem State.latch_b (s : State) : (s.latch).b = s.b := rfl
@[simp] theorem State.latch_c (s : State) : (s.latch).c = s.c := rfl
@[simp] theorem State.latch_d (s : State) : (s.latch).d = s.d := rfl
@[simp] theorem State.latch_e (s : State) : (s.latch).e = s.e := rfl
@[simp] theorem State.latch_h (s : State) : (s.latch).h = s.h := rfl
@[simp] theorem State.latch_l (s : State) : (s.latch).l = s.l := rfl
@[simp] theorem State.latch_a_shadow (s : State) : (s.latch).a' = s.a' := rfl
@[simp] theorem State.latch_f_shadow (s : State) : (s.latch).f' = s.f' := rfl
@[simp] theorem State.latch_b_shadow (s : State) : (s.latch).b' = s.b' := rfl
@[simp] theorem State.latch_c_shadow (s : State) : (s.latch).c' = s.c' := rfl
@[simp] theorem State.latch_d_shadow (s : State) : (s.latch).d' = s.d' := rfl
@[simp] theorem State.latch_e_shadow (s : State) : (s.latch).e' = s.e' := rfl
@[simp] theorem State.latch_h_shadow (s : State) : (s.latch).h' = s.h' := rfl
@[simp] theorem State.latch_l_shadow (s : State) : (s.latch).l' = s.l' := rfl
@[simp] theorem State.latch_ix (s : State) : (s.latch).ix = s.ix := rfl
@[simp] theorem State.latch_iy (s : State) : (s.latch).iy = s.iy := rfl
@[simp] theorem State.latch_sp (s : State) : (s.latch).sp = s.sp := rfl
@[simp] theorem State.latch_pc (s : State) : (s.latch).pc = s.pc := rfl
@[simp] theorem State.latch_wz (s : State) : (s.latch).wz = s.wz := rfl
@[simp] theorem State.latch_i (s : State) : (s.latch).i = s.i := rfl
@[simp] theorem State.latch_r (s : State) : (s.latch).r = s.r := rfl
@[simp] theorem State.latch_iff1 (s : State) : (s.latch).iff1 = s.iff1 := rfl
@[simp] theorem State.latch_iff2 (s : State) : (s.latch).iff2 = s.iff2 := rfl
@[simp] theorem State.latch_im (s : State) : (s.latch).im = s.im := rfl
@[simp] theorem State.latch_halted (s : State) : (s.latch).halted = s.halted := rfl
@[simp] theorem State.latch_eiDelay (s : State) : (s.latch).eiDelay = s.eiDelay := rfl
@[simp] theorem State.latch_intPending (s : State) : (s.latch).intPending = s.intPending := rfl
@[simp] theorem State.latch_intBus (s : State) : (s.latch).intBus = s.intBus := rfl
@[simp] theorem State.latch_nmiPending (s : State) : (s.latch).nmiPending = s.nmiPending := rfl
@[simp] theorem State.latch_tacts (s : State) : (s.latch).tacts = s.tacts := rfl
@[simp] theorem State.latch_mem (s : State) : (s.latch).mem = s.mem := rfl
@[simp] theorem State.latch_memMap (s : State) : (s.latch).memMap = s.memMap := rfl
@[simp] theorem State.latch_portInputs (s : State) : (s.latch).portInputs = s.portInputs := rfl
@[simp] theorem State.latch_portReads (s : State) : (s.latch).portReads = s.portReads := rfl
@[simp] theorem State.latch_bus (s : State) : (s.latch).bus = s.bus := rfl
@[simp] theorem State.latch_branchObserver (s : State) : (s.latch).branchObserver = s.branchObserver := rfl
@[simp] theorem State.latch_stackObserver (s : State) : (s.latch).stackObserver = s.stackObserver := rfl
@[simp] theorem State.latch_branchLog (s : State) : (s.latch).branchLog = s.branchLog := rfl
@[simp] theorem State.latch_stackLog (s : State) : (s.latch).stackLog = s.stackLog := rfl
@[simp] theorem State.latch_opAddr (s : State) : (s.latch).opAddr = s.pc := rfl
@[simp] theorem State.latch_opTacts (s : State) : (s.latch).opTacts = s.tacts := rfl
@[simp] theorem State.latch_peek (s : State) (x : Word) : (s.latch).peek x = s.peek x := rfl

/-! ## alu -/

@[simp] theorem State.alu_a (s : State) (k : AluOp) (v : Byte) : (s.alu k v).a = (alu8 k s.a v s.flags).1 := rfl
@[simp] theorem State.alu_f (s : State) (k : AluOp) (v : Byte) : (s.alu k v).f = (alu8 k s.a v s.flags).2.toByte := rfl
@[simp] theorem State.alu_b (s : State) (k : AluOp) (v : Byte) : (s.alu k v).b = s.b := rfl
@[simp] theorem State.alu_c (s : State) (k : AluOp) (v : Byte) : (s.alu k v).c = s.c := rfl
@[simp] theorem State.alu_d (s : State) (k : AluOp) (v : Byte) : (s.alu k v).d = s.d := rfl
@[simp] theorem State.alu_e (s : State) (k : AluOp) (v : Byte) : (s.alu k v).e = s.e := rfl
@[simp] theorem State.alu_h (s : State) (k : AluOp) (v : Byte) : (s.alu k v).h = s.h := rfl
@[simp] theorem State.alu_l (s : State) (k : AluOp) (v : Byte) : (s.alu k v).l = s.l := rfl
@[simp] theorem State.alu_a_shadow (s : State) (k : AluOp) (v : Byte) : (s.alu k v).a' = s.a' := rfl
@[simp] theorem State.alu_f_shadow (s : State) (k : AluOp) (v : Byte) : (s.alu k v).f' = s.f' := rfl
@[simp] theorem State.alu_b_shadow (s : State) (k : AluOp) (v : Byte) : (s.alu k v).b' = s.b' := rfl
@[simp] theorem State.alu_c_shadow (s : State) (k : AluOp) (v : Byte) : (s.alu k v).c' = s.c' := rfl
@[simp] theorem State.alu_d_shadow (s : State) (k : AluOp) (v : Byte) : (s.alu k v).d' = s.d' := rfl
@[simp] theorem State.alu_e_shadow (s : State) (k : AluOp) (v : Byte) : (s.alu k v).e' = s.e' := rfl
@[simp] theorem State.alu_h_shadow (s : State) (k : AluOp) (v : Byte) : (s.alu k v).h' = s.h' := rfl
@[simp] theorem State.alu_l_shadow (s : State) (k : AluOp) (v : Byte) : (s.alu k v).l' = s.l' := rfl
@[simp] theorem State.alu_ix (s : State) (k : AluOp) (v : Byte) : (s.alu k v).ix = s.ix := rfl
@[simp] theorem State.alu_iy (s : State) (k : AluOp) (v : Byte) : (s.alu k v).iy = s.iy := rfl
@[simp] theorem State.alu_sp (s : State) (k : AluOp) (v : Byte) : (s.alu k v).sp = s.sp := rfl
@[simp] theorem State.alu_pc (s : State) (k : AluOp) (v : Byte) : (s.alu k v).pc = s.pc := rfl
@[simp] theorem State.alu_wz (s : State) (k : AluOp) (v : Byte) : (s.alu k v).wz = s.wz := rfl
@[simp] theorem State.alu_i (s : State) (k : AluOp) (v : Byte) : (s.alu k v).i = s.i := rfl
@[simp] theorem State.alu_r (s : State) (k : AluOp) (v : Byte) : (s.alu k v).r = s.r := rfl
@[simp] theorem State.alu_iff1 (s : State) (k : AluOp) (v : Byte) : (s.alu k v).iff1 = s.iff1 := rfl
@[simp] theorem State.alu_iff2 (s : State) (k : AluOp) (v : Byte) : (s.alu k v).iff2 = s.iff2 := rfl
@[simp] theorem State.alu_im (s : State) (k : AluOp) (v : Byte) : (s.alu k v).im = s.im := rfl
@[simp] theorem State.alu_halted (s : State) (k : AluOp) (v : Byte) : (s.alu k v).halted = s.halted := rfl
@[simp] theorem State.alu_eiDelay (s : State) (k : AluOp) (v : Byte) : (s.alu k v).eiDelay = s.eiDelay := rfl
@[simp] theorem State.alu_intPending (s : State) (k : AluOp) (v : Byte) : (s.alu k v).intPending = s.intPending := rfl
@[simp] theorem State.alu_intBus (s : State) (k : AluOp) (v : Byte) : (s.alu k v).intBus = s.intBus := rfl
@[simp] theorem State.alu_nmiPending (s : State) (k : AluOp) (v : Byte) : (s.alu k v).nmiPending = s.nmiPending := rfl
@[simp] theorem State.alu_tacts (s : State) (k : AluOp) (v : Byte) : (s.alu k v).tacts = s.tacts := rfl
@[simp] theorem State.alu_mem (s : State) (k : AluOp) (v : Byte) : (s.alu k v).mem = s.mem := rfl
@[simp] theorem State.alu_memMap (s : State) (k : AluOp) (v : Byte) : (s.alu k v).memMap = s.memMap := rfl
@[simp] theorem State.alu_portInputs (s : State) (k : AluOp) (v : Byte) : (s.alu k v).portInputs = s.portInputs := rfl
@[simp] theorem State.alu_portReads (s : State) (k : AluOp) (v : Byte) : (s.alu k v).portReads = s.portReads := rfl
@[simp] theorem State.alu_bus (s : State) (k : AluOp) (v : Byte) : (s.alu k v).bus = s.bus := rfl
@[simp] theorem State.alu_branchObserver (s : State) (k : AluOp) (v : Byte) : (s.alu k v).branchObserver = s.branchObserver := rfl
@[simp] theorem State.alu_stackObserver (s : State) (k : AluOp) (v : Byte) : (s.alu k v).stackObserver = s.stackObserver := rfl
@[simp] theorem State.alu_branchLog (s : State) (k : AluOp) (v : Byte) : (s.alu k v).branchLog = s.branchLog := rfl
@[simp] theorem State.alu_stackLog (s : State) (k : AluOp) (v : Byte) : (s.alu k v).stackLog = s.stackLog := rfl
@[simp] theorem State.alu_opAddr (s : State) (k : AluOp) (v : Byte) : (s.alu k v).opAddr = s.opAddr := rfl
@[simp] theorem State.alu_opTacts (s : State) (k : AluOp) (v : Byte) : (s.alu k v).opTacts = s.opTacts := rfl
@[simp] theorem State.alu_peek (s : State) (k : AluOp) (v : Byte) (x : Word) : (s.alu k v).peek x = s.peek x := rfl

/-! ## indexed -/

@[simp] theorem State.indexed_a (s : State) (xy : IndexReg) (o : Byte) : (s.indexed xy o).a = s.a := rfl
@[simp] theorem State.indexed_f (s : State) (xy : IndexReg) (o : Byte) : (s.indexed xy o).f = s.f := rfl
@[simp] theorem State.indexed_b (s : State) (xy : IndexReg) (o : Byte) : (s.indexed xy o).b = s.b := rfl
@[simp] theorem State.indexed_c (s : State) (xy : IndexReg) (o : Byte) : (s.indexed xy o).c = s.c := rfl
@[simp] theorem State.indexed_d (s : State) (xy : IndexReg) (o : Byte) : (s.indexed xy o).d = s.d := rfl
@[simp] theorem State.indexed_e (s : State) (xy : IndexReg) (o : Byte) : (s.indexed xy o).e = s.e := rfl
@[simp] theorem State.indexed_h (s : State) (xy : IndexReg) (o : Byte) : (s.indexed xy o).h = s.h := rfl
@[simp] theorem State.indexed_l (s : State) (xy : IndexReg) (o : Byte) : (s.indexed xy o).l = s.l := rfl
@[simp] theorem State.indexed_a_shadow (s : State) (xy : IndexReg) (o : Byte) : (s.indexed xy o).a' = s.a' := rfl
@[simp] theorem State.indexed_f_shadow (s : State) (xy : IndexReg) (o : Byte) : (s.indexed xy o).f' = s.f' := rfl
@[simp] theorem State.indexed_b_shadow (s : State) (xy : IndexReg) (o : Byte) : (s.indexed xy o).b' = s.b' := rfl
@[simp] theorem State.indexed_c_shadow (s : State) (xy : IndexReg) (o : Byte) : (s.indexed xy o).c' = s.c' := rfl
@[simp] theorem State.indexed_d_shadow (s : State) (xy : IndexReg) (o : Byte) : (s.indexed xy o).d' = s.d' := rfl
@[simp] theorem State.indexed_e_shadow (s : State) (xy : IndexReg) (o : Byte) : (s.indexed xy o).e' = s.e' := rfl
@[simp] theorem State.indexed_h_shadow (s : State) (xy : IndexReg) (o : Byte) : (s.indexed xy o).h' = s.h' := rfl
@[simp] theorem State.indexed_l_shadow (s : State) (xy : IndexReg) (o : Byte) : (s.indexed xy o).l' = s.l' := rfl
@[simp] theorem State.indexed_ix (s : State) (xy : IndexReg) (o : Byte) : (s.indexed xy o).ix = s.ix := rfl
@[simp] theorem State.indexed_iy (s : State) (xy : IndexReg) (o : Byte) : (s.indexed xy o).iy = s.iy := rfl
@[simp] theorem State.indexed_sp (s : State) (xy : IndexReg) (o : Byte) : (s.indexed xy o).sp = s.sp := rfl
@[simp] theorem State.indexed_pc (s : State) (xy : IndexReg) (o : Byte) : (s.indexed xy o).pc = s.pc := rfl
@[simp] theorem State.indexed_wz (s : State) (xy : IndexReg) (o : Byte) : (s.indexed xy o).wz = s.indexAddr xy o := rfl
@[simp] theorem State.indexed_i (s : State) (xy : IndexReg) (o : Byte) : (s.indexed xy o).i = s.i := rfl
@[simp] theorem State.indexed_r (s : State) (xy : IndexReg) (o : Byte) : (s.indexed xy o).r = s.r := rfl
@[simp] theorem State.indexed_iff1 (s : State) (xy : IndexReg) (o : Byte) : (s.indexed xy o).iff1 = s.iff1 := rfl
@[simp] theorem State.indexed_iff2 (s : State) (xy : IndexReg) (o : Byte) : (s.indexed xy o).iff2 = s.iff2 := rfl
@[simp] theorem State.indexed_im (s : State) (xy : IndexReg) (o : Byte) : (s.indexed xy o).im = s.im := rfl
@[simp] theorem State.indexed_halted (s : State) (xy : IndexReg) (o : Byte) : (s.indexed xy o).halted = s.halted := rfl
@[simp] theorem State.indexed_eiDelay (s : State) (xy : IndexReg) (o : Byte) : (s.indexed xy o).eiDelay = s.eiDelay := rfl
@[simp] theorem State.indexed_intPending (s : State) (xy : IndexReg) (o : Byte) : (s.indexed xy o).intPending = s.intPending := rfl
@[simp] theorem State.indexed_intBus (s : State) (xy : IndexReg) (o : Byte) : (s.indexed xy o).intBus = s.intBus := rfl
@[simp] theorem State.indexed_nmiPending (s : State) (xy : IndexReg) (o : Byte) : (s.indexed xy o).nmiPending = s.nmiPending := rfl
@[simp] theorem State.indexed_tacts (s : State) (xy : IndexReg) (o : Byte) : (s.indexed xy o).tacts = s.tacts := rfl
@[simp] theorem State.indexed_mem (s : State) (xy : IndexReg) (o : Byte) : (s.indexed xy o).mem = s.mem := rfl
@[simp] theorem State.indexed_memMap (s : State) (xy : IndexReg) (o : Byte) : (s.indexed xy o).memMap = s.memMap := rfl
@[simp] theorem State.indexed_portInputs (s : State) (xy : IndexReg) (o : Byte) : (s.indexed xy o).portInputs = s.portInputs := rfl
@[simp] theorem State.indexed_portReads (s : State) (xy : IndexReg) (o : Byte) : (s.indexed xy o).portReads = s.portReads := rfl
@[simp] theorem State.indexed_bus (s : State) (xy : IndexReg) (o : Byte) : (s.indexed xy o).bus = s.bus := rfl
@[simp] theorem State.indexed_branchObserver (s : State) (xy : IndexReg) (o : Byte) : (s.indexed xy o).branchObserver = s.branchObserver := rfl
@[simp] theorem State.indexed_stackObserver (s : State) (xy : IndexReg) (o : Byte) : (s.indexed xy o).stackObserver = s.stackObserver := rfl
@[simp] theorem State.indexed_branchLog (s : State) (xy : IndexReg) (o : Byte) : (s.indexed xy o).branchLog = s.branchLog := rfl
@[simp] theorem State.indexed_stackLog (s : State) (xy : IndexReg) (o : Byte) : (s.indexed xy o).stackLog = s.stackLog := rfl
@[simp] theorem State.indexed_opAddr (s : State) (xy : IndexReg) (o : Byte) : (s.indexed xy o).opAddr = s.opAddr := rfl
@[simp] theorem State.indexed_opTacts (s : State) (xy : IndexReg) (o : Byte) : (s.indexed xy o).opTacts = s.opTacts := rfl
@[simp] theorem State.indexed_peek (s : State) (xy : IndexReg) (o : Byte) (x : Word) : (s.indexed xy o).peek x = s.peek x := rfl

/-! ## setReg8 -/

@[simp] theorem State.setReg8_f (s : State) (q : Reg8) (v : Byte) : (s.setReg8 q v).f = s.f := by cases q <;> rfl
@[simp] theorem State.setReg8_a_shadow (s : State) (q : Reg8) (v : Byte) : (s.setReg8 q v).a' = s.a' := by cases q <;> rfl
@[simp] theorem State.setReg8_f_shadow (s : State) (q : Reg8) (v : Byte) : (s.setReg8 q v).f' = s.f' := by cases q <;> rfl
@[simp] theorem State.setReg8_b_shadow (s : State) (q : Reg8) (v : Byte) : (s.setReg8 q v).b' = s.b' := by cases q <;> rfl
@[simp] theorem State.setReg8_c_shadow (s : State) (q : Reg8) (v : Byte) : (s.setReg8 q v).c' = s.c' := by cases q <;> rfl
@[simp] theorem State.setReg8_d_shadow (s : State) (q : Reg8) (v : Byte) : (s.setReg8 q v).d' = s.d' := by cases q <;> rfl
@[simp] theorem State.setReg8_e_shadow (s : State) (q : Reg8) (v : Byte) : (s.setReg8 q v).e' = s.e' := by cases q <;> rfl
@[simp] theorem State.setReg8_h_shadow (s : State) (q : Reg8) (v : Byte) : (s.setReg8 q v).h' = s.h' := by cases q <;> rfl
@[simp] theorem State.setReg8_l_shadow (s : State) (q : Reg8) (v : Byte) : (s.setReg8 q v).l' = s.l' := by cases q <;> rfl
@[simp] theorem State.setReg8_ix (s : State) (q : Reg8) (v : Byte) : (s.setReg8 q v).ix = s.ix := by cases q <;> rfl
@[simp] theorem State.setReg8_iy (s : State) (q : Reg8) (v : Byte) : (s.setReg8 q v).iy = s.iy := by cases q <;> rfl
@[simp] theorem State.setReg8_sp (s : State) (q : Reg8) (v : Byte) : (s.setReg8 q v).sp = s.sp := by cases q <;> rfl
@[simp] theorem State.setReg8_pc (s : State) (q : Reg8) (v : Byte) : (s.setReg8 q v).pc = s.pc := by cases q <;> rfl
@[simp] theorem State.setReg8_wz (s : State) (q : Reg8) (v : Byte) : (s.setReg8 q v).wz = s.wz := by cases q <;> rfl
@[simp] theorem State.setReg8_i (s : State) (q : Reg8) (v : Byte) : (s.setReg8 q v).i = s.i := by cases q <;> rfl
@[simp] theorem State.setReg8_r (s : State) (q : Reg8) (v : Byte) : (s.setReg8 q v).r = s.r := by cases q <;> rfl
@[simp] theorem State.setReg8_iff1 (s : State) (q : Reg8) (v : Byte) : (s.setReg8 q v).iff1 = s.iff1 := by cases q <;> rfl
@[simp] theorem State.setReg8_iff2 (s : State) (q : Reg8) (v : Byte) : (s.setReg8 q v).iff2 = s.iff2 := by cases q <;> rfl
@[simp] theorem State.setReg8_im (s : State) (q : Reg8) (v : Byte) : (s.setReg8 q v).im = s.im := by cases q <;> rfl
@[simp] theorem State.setReg8_halted (s : State) (q : Reg8) (v : Byte) : (s.setReg8 q v).halted = s.halted := by cases q <;> rfl
@[simp] theorem State.setReg8_eiDelay (s : State) (q : Reg8) (v : Byte) : (s.setReg8 q v).eiDelay = s.eiDelay := by cases q <;> rfl
@[simp] theorem State.setReg8_intPending (s : State) (q : Reg8) (v : Byte) : (s.setReg8 q v).intPending = s.intPending := by cases q <;> rfl
@[simp] theorem State.setReg8_intBus (s : State) (q : Reg8) (v : Byte) : (s.setReg8 q v).intBus = s.intBus := by cases q <;> rfl
@[simp] theorem State.setReg8_nmiPending (s : State) (q : Reg8) (v : Byte) : (s.setReg8 q v).nmiPending = s.nmiPending := by cases q <;> rfl
@[simp] theorem State.setReg8_tacts (s : State) (q : Reg8) (v : Byte) : (s.setReg8 q v).tacts = s.tacts := by cases q <;> rfl
@[simp] theorem State.setReg8_mem (s : State) (q : Reg8) (v : Byte) : (s.setReg8 q v).mem = s.mem := by cases q <;> rfl
@[simp] theorem State.setReg8_memMap (s : State) (q : Reg8) (v : Byte) : (s.setReg8 q v).memMap = s.memMap := by cases q <;> rfl
@[simp] theorem State.setReg8_portInputs (s : State) (q : Reg8) (v : Byte) : (s.setReg8 q v).portInputs = s.portInputs := by cases q <;> rfl
@[simp] theorem State.setReg8_portReads (s : State) (q : Reg8) (v : Byte) : (s.setReg8 q v).portReads = s.portReads := by cases q <;> rfl
@[simp] theorem State.setReg8_bus (s : State) (q : Reg8) (v : Byte) : (s.setReg8 q v).bus = s.bus := by cases q <;> rfl
@[simp] theorem State.setReg8_branchObserver (s : State) (q : Reg8) (v : Byte) : (s.setReg8 q v).branchObserver = s.branchObserver := by cases q <;> rfl
@[simp] theorem State.setReg8_stackObserver (s : State) (q : Reg8) (v : Byte) : (s.setReg8 q v).stackObserver = s.stackObserver := by cases q <;> rfl
@[simp] theorem State.setReg8_branchLog (s : State) (q : Reg8) (v : Byte) : (s.setReg8 q v).branchLog = s.branchLog := by cases q <;> rfl
@[simp] theorem State.setReg8_stackLog (s : State) (q : Reg8) (v : Byte) : (s.setReg8 q v).stackLog = s.stackLog := by cases q <;> rfl
@[simp] theorem State.setReg8_opAddr (s : State) (q : Reg8) (v : Byte) : (s.setReg8 q v).opAddr = s.opAddr := by cases q <;> rfl
@[simp] theorem State.setReg8_opTacts (s : State) (q : Reg8) (v : Byte) : (s.setReg8 q v).opTacts = s.opTacts := by cases q <;> rfl

/-! ## setPair -/

@[simp] theorem State.setPair_a (s : State) (p : RegPair) (v : Word) : (s.setPair p v).a = s.a := by cases p <;> rfl
@[simp] theorem State.setPair_f (s : State) (p : RegPair) (v : Word) : (s.setPair p v).f = s.f := by cases p <;> rfl
@[simp] theorem State.setPair_a_shadow (s : State) (p : RegPair) (v : Word) : (s.setPair p v).a' = s.a' := by cases p <;> rfl
@[simp] theorem State.setPair_f_shadow (s : State) (p : RegPair) (v : Word) : (s.setPair p v).f' = s.f' := by cases p <;> rfl
@[simp] theorem State.setPair_b_shadow (s : State) (p : RegPair) (v : Word) : (s.setPair p v).b' = s.b' := by cases p <;> rfl
@[simp] theorem State.setPair_c_shadow (s : State) (p : RegPair) (v : Word) : (s.setPair p v).c' = s.c' := by cases p <;> rfl
@[simp] theorem State.setPair_d_shadow (s : State) (p : RegPair) (v : Word) : (s.setPair p v).d' = s.d' := by cases p <;> rfl
@[simp] theorem State.setPair_e_shadow (s : State) (p : RegPair) (v : Word) : (s.setPair p v).e' = s.e' := by cases p <;> rfl
@[simp] theorem State.setPair_h_shadow (s : State) (p : RegPair) (v : Word) : (s.setPair p v).h' = s.h' := by cases p <;> rfl
@[simp] theorem State.setPair_l_shadow (s : State) (p : RegPair) (v : Word) : (s.setPair p v).l' = s.l' := by cases p <;> rfl
@[simp] theorem State.setPair_ix (s : State) (p : RegPair) (v : Word) : (s.setPair p v).ix = s.ix := by cases p <;> rfl
@[simp] theorem State.setPair_iy (s : State) (p : RegPair) (v : Word) : (s.setPair p v).iy = s.iy := by cases p <;> rfl
@[simp] theorem State.setPair_pc (s : State) (p : RegPair) (v : Word) : (s.setPair p v).pc = s.pc := by cases p <;> rfl
@[simp] theorem State.setPair_wz (s : State) (p : RegPair) (v : Word) : (s.setPair p v).wz = s.wz := by cases p <;> rfl
@[simp] theorem State.setPair_i (s : State) (p : RegPair) (v : Word) : (s.setPair p v).i = s.i := by cases p <;> rfl
@[simp] theorem State.setPair_r (s : State) (p : RegPair) (v : Word) : (s.setPair p v).r = s.r := by cases p <;> rfl
@[simp] theorem State.setPair_iff1 (s : State) (p : RegPair) (v : Word) : (s.setPair p v).iff1 = s.iff1 := by cases p <;> rfl
@[simp] theorem State.setPair_iff2 (s : State) (p : RegPair) (v : Word) : (s.setPair p v).iff2 = s.iff2 := by cases p <;> rfl
@[simp] theorem State.setPair_im (s : State) (p : RegPair) (v : Word) : (s.setPair p v).im = s.im := by cases p <;> rfl
@[simp] theorem State.setPair_halted (s : State) (p : RegPair) (v : Word) : (s.setPair p v).halted = s.halted := by cases p <;> rfl
@[simp] theorem State.setPair_eiDelay (s : State) (p : RegPair) (v : Word) : (s.setPair p v).eiDelay = s.eiDelay := by cases p <;> rfl
@[simp] theorem State.setPair_intPending (s : State) (p : RegPair) (v : Word) : (s.setPair p v).intPending = s.intPending := by cases p <;> rfl
@[simp] theorem State.setPair_intBus (s : State) (p : RegPair) (v : Word) : (s.setPair p v).intBus = s.intBus := by cases p <;> rfl
@[simp] theorem State.setPair_nmiPending (s : State) (p : RegPair) (v : Word) : (s.setPair p v).nmiPending = s.nmiPending := by cases p <;> rfl
@[simp] theorem State.setPair_tacts (s : State) (p : RegPair) (v : Word) : (s.setPair p v).tacts = s.tacts := by cases p <;> rfl
@[simp] theorem State.setPair_mem (s : State) (p : RegPair) (v : Word) : (s.setPair p v).mem = s.mem := by cases p <;> rfl
@[simp] theorem State.setPair_memMap (s : State) (p : RegPair) (v : Word) : (s.setPair p v).memMap = s.memMap := by cases p <;> rfl
@[simp] theorem State.setPair_portInputs (s : State) (p : RegPair) (v : Word) : (s.setPair p v).portInputs = s.portInputs := by cases p <;> rfl
@[simp] theorem State.setPair_portReads (s : State) (p : RegPair) (v : Word) : (s.setPair p v).portReads = s.portReads := by cases p <;> rfl
@[simp] theorem State.setPair_bus (s : State) (p : RegPair) (v : Word) : (s.setPair p v).bus = s.bus := by cases p <;> rfl
@[simp] theorem State.setPair_branchObserver (s : State) (p : RegPair) (v : Word) : (s.setPair p v).branchObserver = s.branchObserver := by cases p <;> rfl
@[simp] theorem State.setPair_stackObserver (s : State) (p : RegPair) (v : Word) : (s.setPair p v).stackObserver = s.stackObserver := by cases p <;> rfl
@[simp] theorem State.setPair_branchLog (s : State) (p : RegPair) (v : Word) : (s.setPair p v).branchLog = s.branchLog := by cases p <;> rfl
@[simp] theorem State.setPair_stackLog (s : State) (p : RegPair) (v : Word) : (s.setPair p v).stackLog = s.stackLog := by cases p <;> rfl
@[simp] theorem State.setPair_opAddr (s : State) (p : RegPair) (v : Word) : (s.setPair p v).opAddr = s.opAddr := by cases p <;> rfl
@[simp] theorem State.setPair_opTacts (s : State) (p : RegPair) (v : Word) : (s.setPair p v).opTacts = s.opTacts := by cases p <;> rfl

/-! ## setStackPair -/

@[simp] theorem State.setStackPair_a_shadow (s : State) (p : StackPair) (v : Word) : (s.setStackPair p v).a' = s.a' := by cases p <;> rfl
@[simp] theorem State.setStackPair_f_shadow (s : State) (p : StackPair) (v : Word) : (s.setStackPair p v).f' = s.f' := by cases p <;> rfl
@[simp] theorem State.setStackPair_b_shadow (s : State) (p : StackPair) (v : Word) : (s.setStackPair p v).b' = s.b' := by cases p <;> rfl
@[simp] theorem State.setStackPair_c_shadow (s : State) (p : StackPair) (v : Word) : (s.setStackPair p v).c' = s.c' := by cases p <;> rfl
@[simp] theorem State.setStackPair_d_shadow (s : State) (p : StackPair) (v : Word) : (s.setStackPair p v).d' = s.d' := by cases p <;> rfl
@[simp] theorem State.setStackPair_e_shadow (s : State) (p : StackPair) (v : Word) : (s.setStackPair p v).e' = s.e' := by cases p <;> rfl
@[simp] theorem State.setStackPair_h_shadow (s : State) (p : StackPair) (v : Word) : (s.setStackPair p v).h' = s.h' := by cases p <;> rfl
@[simp] theorem State.setStackPair_l_shadow (s : State) (p : StackPair) (v : Word) : (s.setStackPair p v).l' = s.l' := by cases p <;> rfl
@[simp] theorem State.setStackPair_ix (s : State) (p : StackPair) (v : Word) : (s.setStackPair p v).ix = s.ix := by cases p <;> rfl
@[simp] theorem State.setStackPair_iy (s : State) (p : StackPair) (v : Word) : (s.setStackPair p v).iy = s.iy := by cases p <;> rfl
@[simp] theorem State.setStackPair_sp (s : State) (p : StackPair) (v : Word) : (s.setStackPair p v).sp = s.sp := by cases p <;> rfl
@[simp] theorem State.setStackPair_pc (s : State) (p : StackPair) (v : Word) : (s.setStackPair p v).pc = s.pc := by cases p <;> rfl
@[simp] theorem State.setStackPair_wz (s : State) (p : StackPair) (v : Word) : (s.setStackPair p v).wz = s.wz := by cases p <;> rfl
@[simp] theorem State.setStackPair_i (s : State) (p : StackPair) (v : Word) : (s.setStackPair p v).i = s.i := by cases p <;> rfl
@[simp] theorem State.setStackPair_r (s : State) (p : StackPair) (v : Word) : (s.setStackPair p v).r = s.r := by cases p <;> rfl
@[simp] theorem State.setStackPair_iff1 (s : State) (p : StackPair) (v : Word) : (s.setStackPair p v).iff1 = s.iff1 := by cases p <;> rfl
@[simp] theorem State.setStackPair_iff2 (s : State) (p : StackPair) (v : Word) : (s.setStackPair p v).iff2 = s.iff2 := by cases p <;> rfl
@[simp] theorem State.setStackPair_im (s : State) (p : StackPair) (v : Word) : (s.setStackPair p v).im = s.im := by cases p <;> rfl
@[simp] theorem State.setStackPair_halted (s : State) (p : StackPair) (v : Word) : (s.setStackPair p v).halted = s.halted := by cases p <;> rfl
@[simp] theorem State.setStackPair_eiDelay (s : State) (p : StackPair) (v : Word) : (s.setStackPair p v).eiDelay = s.eiDelay := by cases p <;> rfl
@[simp] theorem State.setStackPair_intPending (s : State) (p : StackPair) (v : Word) : (s.setStackPair p v).intPending = s.intPending := by cases p <;> rfl
@[simp] theorem State.setStackPair_intBus (s : State) (p : StackPair) (v : Word) : (s.setStackPair p v).intBus = s.intBus := by cases p <;> rfl
@[simp] theorem State.setStackPair_nmiPending (s : State) (p : StackPair) (v : Word) : (s.setStackPair p v).nmiPending = s.nmiPending := by cases p <;> rfl
@[simp] theorem State.setStackPair_tacts (s : State) (p : StackPair) (v : Word) : (s.setStackPair p v).tacts = s.tacts := by cases p <;> rfl
@[simp] theorem State.setStackPair_mem (s : State) (p : StackPair) (v : Word) : (s.setStackPair p v).mem = s.mem := by cases p <;> rfl
@[simp] theorem State.setStackPair_memMap (s : State) (p : StackPair) (v : Word) : (s.setStackPair p v).memMap = s.memMap := by cases p <;> rfl
@[simp] theorem State.setStackPair_portInputs (s : State) (p : StackPair) (v : Word) : (s.setStackPair p v).portInputs = s.portInputs := by cases p <;> rfl
@[simp] theorem State.setStackPair_portReads (s : State) (p : StackPair) (v : Word) : (s.setStackPair p v).portReads = s.portReads := by cases p <;> rfl
@[simp] theorem State.setStackPair_bus (s : State) (p : StackPair) (v : Word) : (s.setStackPair p v).bus = s.bus := by cases p <;> rfl
@[simp] theorem State.setStackPair_branchObserver (s : State) (p : StackPair) (v : Word) : (s.setStackPair p v).branchObserver = s.branchObserver := by cases p <;> rfl
@[simp] theorem State.setStackPair_stackObserver (s : State) (p : StackPair) (v : Word) : (s.setStackPair p v).stackObserver = s.stackObserver := by cases p <;> rfl
@[simp] theorem State.setStackPair_branchLog (s : State) (p : StackPair) (v : Word) : (s.setStackPair p v).branchLog = s.branchLog := by cases p <;> rfl
@[simp] theorem State.setStackPair_stackLog (s : State) (p : StackPair) (v : Word) : (s.setStackPair p v).stackLog = s.stackLog := by cases p <;> rfl
@[simp] theorem State.setStackPair_opAddr (s : State) (p : StackPair) (v : Word) : (s.setStackPair p v).opAddr = s.opAddr := by cases p <;> rfl
@[simp] theorem State.setStackPair_opTacts (s : State) (p : StackPair) (v : Word) : (s.setStackPair p v).opTacts = s.opTacts := by cases p <;> rfl

/-! ## setIndex -/

@[simp] theorem State.setIndex_a (s : State) (xy : IndexReg) (v : Word) : (s.setIndex xy v).a = s.a := by cases xy <;> rfl
@[simp] theorem State.setIndex_f (s : State) (xy : IndexReg) (v : Word) : (s.setIndex xy v).f = s.f := by cases xy <;> rfl
@[simp] theorem State.setIndex_b (s : State) (xy : IndexReg) (v : Word) : (s.setIndex xy v).b = s.b := by cases xy <;> rfl
@[simp] theorem State.setIndex_c (s : State) (xy : IndexReg) (v : Word) : (s.setIndex xy v).c = s.c := by cases xy <;> rfl
@[simp] theorem State.setIndex_d (s : State) (xy : IndexReg) (v : Word) : (s.setIndex xy v).d = s.d := by cases xy <;> rfl
@[simp] theorem State.setIndex_e (s : State) (xy : IndexReg) (v : Word) : (s.setIndex xy v).e = s.e := by cases xy <;> rfl
@[simp] theorem State.setIndex_h (s : State) (xy : IndexReg) (v : Word) : (s.setIndex xy v).h = s.h := by cases xy <;> rfl
@[simp] theorem State.setIndex_l (s : State) (xy : IndexReg) (v : Word) : (s.setIndex xy v).l = s.l := by cases xy <;> rfl
@[simp] theorem State.setIndex_a_shadow (s : State) (xy : IndexReg) (v : Word) : (s.setIndex xy v).a' = s.a' := by cases xy <;> rfl
@[simp] theorem State.setIndex_f_shadow (s : State) (xy : IndexReg) (v : Word) : (s.setIndex xy v).f' = s.f' := by cases xy <;> rfl
@[simp] theorem State.setIndex_b_shadow (s : State) (xy : IndexReg) (v : Word) : (s.setIndex xy v).b' = s.b' := by cases xy <;> rfl
@[simp] theorem State.setIndex_c_shadow (s : State) (xy : IndexReg) (v : Word) : (s.setIndex xy v).c' = s.c' := by cases xy <;> rfl
@[simp] theorem State.setIndex_d_shadow (s : State) (xy : IndexReg) (v : Word) : (s.setIndex xy v).d' = s.d' := by cases xy <;> rfl
@[simp] theorem State.setIndex_e_shadow (s : State) (xy : IndexReg) (v : Word) : (s.setIndex xy v).e' = s.e' := by cases xy <;> rfl
@[simp] theorem State.setIndex_h_shadow (s : State) (xy : IndexReg) (v : Word) : (s.setIndex xy v).h' = s.h' := by cases xy <;> rfl
@[simp] theorem State.setIndex_l_shadow (s : State) (xy : IndexReg) (v : Word) : (s.setIndex xy v).l' = s.l' := by cases xy <;> rfl
@[simp] theorem State.setIndex_sp (s : State) (xy : IndexReg) (v : Word) : (s.setIndex xy v).sp = s.sp := by cases xy <;> rfl
@[simp] theorem State.setIndex_pc (s : State) (xy : IndexReg) (v : Word) : (s.setIndex xy v).pc = s.pc := by cases xy <;> rfl
@[simp] theorem State.setIndex_wz (s : State) (xy : IndexReg) (v : Word) : (s.setIndex xy v).wz = s.wz := by cases xy <;> rfl
@[simp] theorem State.setIndex_i (s : State) (xy : IndexReg) (v : Word) : (s.setIndex xy v).i = s.i := by cases xy <;> rfl
@[simp] theorem State.setIndex_r (s : State) (xy : IndexReg) (v : Word) : (s.setIndex xy v).r = s.r := by cases xy <;> rfl
@[simp] theorem State.setIndex_iff1 (s : State) (xy : IndexReg) (v : Word) : (s.setIndex xy v).iff1 = s.iff1 := by cases xy <;> rfl
@[simp] theorem State.setIndex_iff2 (s : State) (xy : IndexReg) (v : Word) : (s.setIndex xy v).iff2 = s.iff2 := by cases xy <;> rfl
@[simp] theorem State.setIndex_im (s : State) (xy : IndexReg) (v : Word) : (s.setIndex xy v).im = s.im := by cases xy <;> rfl
@[simp] theorem State.setIndex_halted (s : State) (xy : IndexReg) (v : Word) : (s.setIndex xy v).halted = s.halted := by cases xy <;> rfl
@[simp] theorem State.setIndex_eiDelay (s : State) (xy : IndexReg) (v : Word) : (s.setIndex xy v).eiDelay = s.eiDelay := by cases xy <;> rfl
@[simp] theorem State.setIndex_intPending (s : State) (xy : IndexReg) (v : Word) : (s.setIndex xy v).intPending = s.intPending := by cases xy <;> rfl
@[simp] theorem State.setIndex_intBus (s : State) (xy : IndexReg) (v : Word) : (s.setIndex xy v).intBus = s.intBus := by cases xy <;> rfl
@[simp] theorem State.setIndex_nmiPending (s : State) (xy : IndexReg) (v : Word) : (s.setIndex xy v).nmiPending = s.nmiPending := by cases xy <;> rfl
@[simp] theorem State.setIndex_tacts (s : State) (xy : IndexReg) (v : Word) : (s.setIndex xy v).tacts = s.tacts := by cases xy <;> rfl
@[simp] theorem State.setIndex_mem (s : State) (xy : IndexReg) (v : Word) : (s.setIndex xy v).mem = s.mem := by cases xy <;> rfl
@[simp] theorem State.setIndex_memMap (s : State) (xy : IndexReg) (v : Word) : (s.setIndex xy v).memMap = s.memMap := by cases xy <;> rfl
@[simp] theorem State.setIndex_portInputs (s : State) (xy : IndexReg) (v : Word) : (s.setIndex xy v).portInputs = s.portInputs := by cases xy <;> rfl
@[simp] theorem State.setIndex_portReads (s : State) (xy : IndexReg) (v : Word) : (s.setIndex xy v).portReads = s.portReads := by cases xy <;> rfl
@[simp] theorem State.setIndex_bus (s : State) (xy : IndexReg) (v : Word) : (s.setIndex xy v).bus = s.bus := by cases xy <;> rfl
@[simp] theorem State.setIndex_branchObserver (s : State) (xy : IndexReg) (v : Word) : (s.setIndex xy v).branchObserver = s.branchObserver := by cases xy <;> rfl
@[simp] theorem State.setIndex_stackObserver (s : State) (xy : IndexReg) (v : Word) : (s.setIndex xy v).stackObserver = s.stackObserver := by cases xy <;> rfl
@[simp] theorem State.setIndex_branchLog (s : State) (xy : IndexReg) (v : Word) : (s.setIndex xy v).branchLog = s.branchLog := by cases xy <;> rfl
@[simp] theorem State.setIndex_stackLog (s : State) (xy : IndexReg) (v : Word) : (s.setIndex xy v).stackLog = s.stackLog := by cases xy <;> rfl
@[simp] theorem State.setIndex_opAddr (s : State) (xy : IndexReg) (v : Word) : (s.setIndex xy v).opAddr = s.opAddr := by cases xy <;> rfl
@[simp] theorem State.setIndex_opTacts (s : State) (xy : IndexReg) (v : Word) : (s.setIndex xy v).opTacts = s.opTacts := by cases xy <;> rfl

/-! ## setHalf -/

@[simp] theorem State.setHalf_a (s : State) (xy : IndexReg) (p : Half) (v : Byte) : (s.setHalf xy p v).a = s.a := by cases xy <;> cases p <;> rfl
@[simp] theorem State.setHalf_f (s : State) (xy : IndexReg) (p : Half) (v : Byte) : (s.setHalf xy p v).f = s.f := by cases xy <;> cases p <;> rfl
@[simp] theorem State.setHalf_b (s : State) (xy : IndexReg) (p : Half) (v : Byte) : (s.setHalf xy p v).b = s.b := by cases xy <;> cases p <;> rfl
@[simp] theorem State.setHalf_c (s : State) (xy : IndexReg) (p : Half) (v : Byte) : (s.setHalf xy p v).c = s.c := by cases xy <;> cases p <;> rfl
@[simp] theorem State.setHalf_d (s : State) (xy : IndexReg) (p : Half) (v : Byte) : (s.setHalf xy p v).d = s.d := by cases xy <;> cases p <;> rfl
@[simp] theorem State.setHalf_e (s : State) (xy : IndexReg) (p : Half) (v : Byte) : (s.setHalf xy p v).e = s.e := by cases xy <;> cases p <;> rfl
@[simp] theorem State.setHalf_h (s : State) (xy : IndexReg) (p : Half) (v : Byte) : (s.setHalf xy p v).h = s.h := by cases xy <;> cases p <;> rfl
@[simp] theorem State.setHalf_l (s : State) (xy : IndexReg) (p : Half) (v : Byte) : (s.setHalf xy p v).l = s.l := by cases xy <;> cases p <;> rfl
@[simp] theorem State.setHalf_a_shadow (s : State) (xy : IndexReg) (p : Half) (v : Byte) : (s.setHalf xy p v).a' = s.a' := by cases xy <;> cases p <;> rfl
@[simp] theorem State.setHalf_f_shadow (s : State) (xy : IndexReg) (p : Half) (v : Byte) : (s.setHalf xy p v).f' = s.f' := by cases xy <;> cases p <;> rfl
@[simp] theorem State.setHalf_b_shadow (s : State) (xy : IndexReg) (p : Half) (v : Byte) : (s.setHalf xy p v).b' = s.b' := by cases xy <;> cases p <;> rfl
@[simp] theorem State.setHalf_c_shadow (s : State) (xy : IndexReg) (p : Half) (v : Byte) : (s.setHalf xy p v).c' = s.c' := by cases xy <;> cases p <;> rfl
@[simp] theorem State.setHalf_d_shadow (s : State) (xy : IndexReg) (p : Half) (v : Byte) : (s.setHalf xy p v).d' = s.d' := by cases xy <;> cases p <;> rfl
@[simp] theorem State.setHalf_e_shadow (s : State) (xy : IndexReg) (p : Half) (v : Byte) : (s.setHalf xy p v).e' = s.e' := by cases xy <;> cases p <;> rfl
@[simp] theorem State.setHalf_h_shadow (s : State) (xy : IndexReg) (p : Half) (v : Byte) : (s.setHalf xy p v).h' = s.h' := by cases xy <;> cases p <;> rfl
@[simp] theorem State.setHalf_l_shadow (s : State) (xy : IndexReg) (p : Half) (v : Byte) : (s.setHalf xy p v).l' = s.l' := by cases xy <;> cases p <;> rfl
@[simp] theorem State.setHalf_sp (s : State) (xy : IndexReg) (p : Half) (v : Byte) : (s.setHalf xy p v).sp = s.sp := by cases xy <;> cases p <;> rfl
@[simp] theorem State.setHalf_pc (s : State) (xy : IndexReg) (p : Half) (v : Byte) : (s.setHalf xy p v).pc = s.pc := by cases xy <;> cases p <;> rfl
@[simp] theorem State.setHalf_wz (s : State) (xy : IndexReg) (p : Half) (v : Byte) : (s.setHalf xy p v).wz = s.wz := by cases xy <;> cases p <;> rfl
@[simp] theorem State.setHalf_i (s : State) (xy : IndexReg) (p : Half) (v : Byte) : (s.setHalf xy p v).i = s.i := by cases xy <;> cases p <;> rfl
@[simp] theorem State.setHalf_r (s : State) (xy : IndexReg) (p : Half) (v : Byte) : (s.setHalf xy p v).r = s.r := by cases xy <;> cases p <;> rfl
@[simp] theorem State.setHalf_iff1 (s : State) (xy : IndexReg) (p : Half) (v : Byte) : (s.setHalf xy p v).iff1 = s.iff1 := by cases xy <;> cases p <;> rfl
@[simp] theorem State.setHalf_iff2 (s : State) (xy : IndexReg) (p : Half) (v : Byte) : (s.setHalf xy p v).iff2 = s.iff2 := by cases xy <;> cases p <;> rfl
@[simp] theorem State.setHalf_im (s : State) (xy : IndexReg) (p : Half) (v : Byte) : (s.setHalf xy p v).im = s.im := by cases xy <;> cases p <;> rfl
@[simp] theorem State.setHalf_halted (s : State) (xy : IndexReg) (p : Half) (v : Byte) : (s.setHalf xy p v).halted = s.halted := by cases xy <;> cases p <;> rfl
@[simp] theorem State.setHalf_eiDelay (s : State) (xy : IndexReg) (p : Half) (v : Byte) : (s.setHalf xy p v).eiDelay = s.eiDelay := by cases xy <;> cases p <;> rfl
@[simp] theorem State.setHalf_intPending (s : State) (xy : IndexReg) (p : Half) (v : Byte) : (s.setHalf xy p v).intPending = s.intPending := by cases xy <;> cases p <;> rfl
@[simp] theorem State.setHalf_intBus (s : State) (xy : IndexReg) (p : Half) (v : Byte) : (s.setHalf xy p v).intBus = s.intBus := by cases xy <;> cases p <;> rfl
@[simp] theorem State.setHalf_nmiPending (s : State) (xy : IndexReg) (p : Half) (v : Byte) : (s.setHalf xy p v).nmiPending = s.nmiPending := by cases xy <;> cases p <;> rfl
@[simp] theorem State.setHalf_tacts (s : State) (xy : IndexReg) (p : Half) (v : Byte) : (s.setHalf xy p v).tacts = s.tacts := by cases xy <;> cases p <;> rfl
@[simp] theorem State.setHalf_mem (s : State) (xy : IndexReg) (p : Half) (v : Byte) : (s.setHalf xy p v).mem = s.mem := by cases xy <;> cases p <;> rfl
@[simp] theorem State.setHalf_memMap (s : State) (xy : IndexReg) (p : Half) (v : Byte) : (s.setHalf xy p v).memMap = s.memMap := by cases xy <;> cases p <;> rfl
@[simp] theorem State.setHalf_portInputs (s : State) (xy : IndexReg) (p : Half) (v : Byte) : (s.setHalf xy p v).portInputs = s.portInputs := by cases xy <;> cases p <;> rfl
@[simp] theorem State.setHalf_portReads (s : State) (xy : IndexReg) (p : Half) (v : Byte) : (s.setHalf xy p v).portReads = s.portReads := by cases xy <;> cases p <;> rfl
@[simp] theorem State.setHalf_bus (s : State) (xy : IndexReg) (p : Half) (v : Byte) : (s.setHalf xy p v).bus = s.bus := by cases xy <;> cases p <;> rfl
@[simp] theorem State.setHalf_branchObserver (s : State) (xy : IndexReg) (p : Half) (v : Byte) : (s.setHalf xy p v).branchObserver = s.branchObserver := by cases xy <;> cases p <;> rfl
@[simp] theorem State.setHalf_stackObserver (s : State) (xy : IndexReg) (p : Half) (v : Byte) : (s.setHalf xy p v).stackObserver = s.stackObserver := by cases xy <;> cases p <;> rfl
@[simp] theorem State.setHalf_branchLog (s : State) (xy : IndexReg) (p : Half) (v : Byte) : (s.setHalf xy p v).branchLog = s.branchLog := by cases xy <;> cases p <;> rfl
@[simp] theorem State.setHalf_stackLog (s : State) (xy : IndexReg) (p : Half) (v : Byte) : (s.setHalf xy p v).stackLog = s.stackLog := by cases xy <;> cases p <;> rfl
@[simp] theorem State.setHalf_opAddr (s : State) (xy : IndexReg) (p : Half) (v : Byte) : (s.setHalf xy p v).opAddr = s.opAddr := by cases xy <;> cases p <;> rfl
@[simp] theorem State.setHalf_opTacts (s : State) (xy : IndexReg) (p : Half) (v : Byte) : (s.setHalf xy p v).opTacts = s.opTacts := by cases xy <;> cases p <;> rfl

/-! ## setHalfReg -/

@[simp] theorem State.setHalfReg_f (s : State) (xy : IndexReg) (q : HalfReg) (v : Byte) : (s.setHalfReg xy q v).f = s.f := by cases q <;> cases xy <;> rfl
@[simp] theorem State.setHalfReg_h (s : State) (xy : IndexReg) (q : HalfReg) (v : Byte) : (s.setHalfReg xy q v).h = s.h := by cases q <;> cases xy <;> rfl
@[simp] theorem State.setHalfReg_l (s : State) (xy : IndexReg) (q : HalfReg) (v : Byte) : (s.setHalfReg xy q v).l = s.l := by cases q <;> cases xy <;> rfl
@[simp] theorem State.setHalfReg_a_shadow (s : State) (xy : IndexReg) (q : HalfReg) (v : Byte) : (s.setHalfReg xy q v).a' = s.a' := by cases q <;> cases xy <;> rfl
@[simp] theorem State.setHalfReg_f_shadow (s : State) (xy : IndexReg) (q : HalfReg) (v : Byte) : (s.setHalfReg xy q v).f' = s.f' := by cases q <;> cases xy <;> rfl
@[simp] theorem State.setHalfReg_b_shadow (s : State) (xy : IndexReg) (q : HalfReg) (v : Byte) : (s.setHalfReg xy q v).b' = s.b' := by cases q <;> cases xy <;> rfl
@[simp] theorem State.setHalfReg_c_shadow (s : State) (xy : IndexReg) (q : HalfReg) (v : Byte) : (s.setHalfReg xy q v).c' = s.c' := by cases q <;> cases xy <;> rfl
@[simp] theorem State.setHalfReg_d_shadow (s : State) (xy : IndexReg) (q : HalfReg) (v : Byte) : (s.setHalfReg xy q v).d' = s.d' := by cases q <;> cases xy <;> rfl
@[simp] theorem State.setHalfReg_e_shadow (s : State) (xy : IndexReg) (q : HalfReg) (v : Byte) : (s.setHalfReg xy q v).e' = s.e' := by cases q <;> cases xy <;> rfl
@[simp] theorem State.setHalfReg_h_shadow (s : State) (xy : IndexReg) (q : HalfReg) (v : Byte) : (s.setHalfReg xy q v).h' = s.h' := by cases q <;> cases xy <;> rfl
@[simp] theorem State.setHalfReg_l_shadow (s : State) (xy : IndexReg) (q : HalfReg) (v : Byte) : (s.setHalfReg xy q v).l' = s.l' := by cases q <;> cases xy <;> rfl
@[simp] theorem State.setHalfReg_sp (s : State) (xy : IndexReg) (q : HalfReg) (v : Byte) : (s.setHalfReg xy q v).sp = s.sp := by cases q <;> cases xy <;> rfl
@[simp] theorem State.setHalfReg_pc (s : State) (xy : IndexReg) (q : HalfReg) (v : Byte) : (s.setHalfReg xy q v).pc = s.pc := by cases q <;> cases xy <;> rfl
@[simp] theorem State.setHalfReg_wz (s : State) (xy : IndexReg) (q : HalfReg) (v : Byte) : (s.setHalfReg xy q v).wz = s.wz := by cases q <;> cases xy <;> rfl
@[simp] theorem State.setHalfReg_i (s : State) (xy : IndexReg) (q : HalfReg) (v : Byte) : (s.setHalfReg xy q v).i = s.i := by cases q <;> cases xy <;> rfl
@[simp] theorem State.setHalfReg_r (s : State) (xy : IndexReg) (q : HalfReg) (v : Byte) : (s.setHalfReg xy q v).r = s.r := by cases q <;> cases xy <;> rfl
@[simp] theorem State.setHalfReg_iff1 (s : State) (xy : IndexReg) (q : HalfReg) (v : Byte) : (s.setHalfReg xy q v).iff1 = s.iff1 := by cases q <;> cases xy <;> rfl
@[simp] theorem State.setHalfReg_iff2 (s : State) (xy : IndexReg) (q : HalfReg) (v : Byte) : (s.setHalfReg xy q v).iff2 = s.iff2 := by cases q <;> cases xy <;> rfl
@[simp] theorem State.setHalfReg_im (s : State) (xy : IndexReg) (q : HalfReg) (v : Byte) : (s.setHalfReg xy q v).im = s.im := by cases q <;> cases xy <;> rfl
@[simp] theorem State.setHalfReg_halted (s : State) (xy : IndexReg) (q : HalfReg) (v : Byte) : (s.setHalfReg xy q v).halted = s.halted := by cases q <;> cases xy <;> rfl
@[simp] theorem State.setHalfReg_eiDelay (s : State) (xy : IndexReg) (q : HalfReg) (v : Byte) : (s.setHalfReg xy q v).eiDelay = s.eiDelay := by cases q <;> cases xy <;> rfl
@[simp] theorem State.setHalfReg_intPending (s : State) (xy : IndexReg) (q : HalfReg) (v : Byte) : (s.setHalfReg xy q v).intPending = s.intPending := by cases q <;> cases xy <;> rfl
@[simp] theorem State.setHalfReg_intBus (s : State) (xy : IndexReg) (q : HalfReg) (v : Byte) : (s.setHalfReg xy q v).intBus = s.intBus := by cases q <;> cases xy <;> rfl
@[simp] theorem State.setHalfReg_nmiPending (s : State) (xy : IndexReg) (q : HalfReg) (v : Byte) : (s.setHalfReg xy q v).nmiPending = s.nmiPending := by cases q <;> cases xy <;> rfl
@[simp] theorem State.setHalfReg_tacts (s : State) (xy : IndexReg) (q : HalfReg) (v : Byte) : (s.setHalfReg xy q v).tacts = s.tacts := by cases q <;> cases xy <;> rfl
@[simp] theorem State.setHalfReg_mem (s : State) (xy : IndexReg) (q : HalfReg) (v : Byte) : (s.setHalfReg xy q v).mem = s.mem := by cases q <;> cases xy <;> rfl
@[simp] theorem State.setHalfReg_memMap (s : State) (xy : IndexReg) (q : HalfReg) (v : Byte) : (s.setHalfReg xy q v).memMap = s.memMap := by cases q <;> cases xy <;> rfl
@[simp] theorem State.setHalfReg_portInputs (s : State) (xy : IndexReg) (q : HalfReg) (v : Byte) : (s.setHalfReg xy q v).portInputs = s.portInputs := by cases q <;> cases xy <;> rfl
@[simp] theorem State.setHalfReg_portReads (s : State) (xy : IndexReg) (q : HalfReg) (v : Byte) : (s.setHalfReg xy q v).portReads = s.portReads := by cases q <;> cases xy <;> rfl
@[simp] theorem State.setHalfReg_bus (s : State) (xy : IndexReg) (q : HalfReg) (v : Byte) : (s.setHalfReg xy q v).bus = s.bus := by cases q <;> cases xy <;> rfl
@[simp] theorem State.setHalfReg_branchObserver (s : State) (xy : IndexReg) (q : HalfReg) (v : Byte) : (s.setHalfReg xy q v).branchObserver = s.branchObserver := by cases q <;> cases xy <;> rfl
@[simp] theorem State.setHalfReg_stackObserver (s : State) (xy : IndexReg) (q : HalfReg) (v : Byte) : (s.setHalfReg xy q v).stackObserver = s.stackObserver := by cases q <;> cases xy <;> rfl
@[simp] theorem State.setHalfReg_branchLog (s : State) (xy : IndexReg) (q : HalfReg) (v : Byte) : (s.setHalfReg xy q v).branchLog = s.branchLog := by cases q <;> cases xy <;> rfl
@[simp] theorem State.setHalfReg_stackLog (s : State) (xy : IndexReg) (q : HalfReg) (v : Byte) : (s.setHalfReg xy q v).stackLog = s.stackLog := by cases q <;> cases xy <;> rfl
@[simp] theorem State.setHalfReg_opAddr (s : State) (xy : IndexReg) (q : HalfReg) (v : Byte) : (s.setHalfReg xy q v).opAddr = s.opAddr := by cases q <;> cases xy <;> rfl
@[simp] theorem State.setHalfReg_opTacts (s : State) (xy : IndexReg) (q : HalfReg) (v : Byte) : (s.setHalfReg xy q v).opTacts = s.opTacts := by cases q <;> cases xy <;> rfl

/-! ## emitBranch -/

@[simp] theorem State.emitBranch_a (s : State) (j : Instr) (taken : Bool) (target : Word) : (s.emitBranch j taken target).a = s.a := by unfold State.emitBranch; split <;> rfl
@[simp] theorem State.emitBranch_f (s : State) (j : Instr) (taken : Bool) (target : Word) : (s.emitBranch j taken target).f = s.f := by unfold State.emitBranch; split <;> rfl
@[simp] theorem State.emitBranch_b (s : State) (j : Instr) (taken : Bool) (target : Word) : (s.emitBranch j taken target).b = s.b := by unfold State.emitBranch; split <;> rfl
@[simp] theorem State.emitBranch_c (s : State) (j : Instr) (taken : Bool) (target : Word) : (s.emitBranch j taken target).c = s.c := by unfold State.emitBranch; split <;> rfl
@[simp] theorem State.emitBranch_d (s : State) (j : Instr) (taken : Bool) (target : Word) : (s.emitBranch j taken target).d = s.d := by unfold State.emitBranch; split <;> rfl
@[simp] theorem State.emitBranch_e (s : State) (j : Instr) (taken : Bool) (target : Word) : (s.emitBranch j taken target).e = s.e := by unfold State.emitBranch; split <;> rfl
@[simp] theorem State.emitBranch_h (s : State) (j : Instr) (taken : Bool) (target : Word) : (s.emitBranch j taken target).h = s.h := by unfold State.emitBranch; split <;> rfl
@[simp] theorem State.emitBranch_l (s : State) (j : Instr) (taken : Bool) (target : Word) : (s.emitBranch j taken target).l = s.l := by unfold State.emitBranch; split <;> rfl
@[simp] theorem State.emitBranch_a_shadow (s : State) (j : Instr) (taken : Bool) (target : Word) : (s.emitBranch j taken target).a' = s.a' := by unfold State.emitBranch; split <;> rfl
@[simp] theorem State.emitBranch_f_shadow (s : State) (j : Instr) (taken : Bool) (target : Word) : (s.emitBranch j taken target).f' = s.f' := by unfold State.emitBranch; split <;> rfl
@[simp] theorem State.emitBranch_b_shadow (s : State) (j : Instr) (taken : Bool) (target : Word) : (s.emitBranch j taken target).b' = s.b' := by unfold State.emitBranch; split <;> rfl
@[simp] theorem State.emitBranch_c_shadow (s : State) (j : Instr) (taken : Bool) (target : Word) : (s.emitBranch j taken target).c' = s.c' := by unfold State.emitBranch; split <;> rfl
@[simp] theorem State.emitBranch_d_shadow (s : State) (j : Instr) (taken : Bool) (target : Word) : (s.emitBranch j taken target).d' = s.d' := by unfold State.emitBranch; split <;> rfl
@[simp] theorem State.emitBranch_e_shadow (s : State) (j : Instr) (taken : Bool) (target : Word) : (s.emitBranch j taken target).e' = s.e' := by unfold State.emitBranch; split <;> rfl
@[simp] theorem State.emitBranch_h_shadow (s : State) (j : Instr) (taken : Bool) (target : Word) : (s.emitBranch j taken target).h' = s.h' := by unfold State.emitBranch; split <;> rfl
@[simp] theorem State.emitBranch_l_shadow (s : State) (j : Instr) (taken : Bool) (target : Word) : (s.emitBranch j taken target).l' = s.l' := by unfold State.emitBranch; split <;> rfl
@[simp] theorem State.emitBranch_ix (s : State) (j : Instr) (taken : Bool) (target : Word) : (s.emitBranch j taken target).ix = s.ix := by unfold State.emitBranch; split <;> rfl
@[simp] theorem State.emitBranch_iy (s : State) (j : Instr) (taken : Bool) (target : Word) : (s.emitBranch j taken target).iy = s.iy := by unfold State.emitBranch; split <;> rfl
@[simp] theorem State.emitBranch_sp (s : State) (j : Instr) (taken : Bool) (target : Word) : (s.emitBranch j taken target).sp = s.sp := by unfold State.emitBranch; split <;> rfl
@[simp] theorem State.emitBranch_pc (s : State) (j : Instr) (taken : Bool) (target : Word) : (s.emitBranch j taken target).pc = s.pc := by unfold State.emitBranch; split <;> rfl
@[simp] theorem State.emitBranch_wz (s : State) (j : Instr) (taken : Bool) (target : Word) : (s.emitBranch j taken target).wz = s.wz := by unfold State.emitBranch; split <;> rfl
@[simp] theorem State.emitBranch_i (s : State) (j : Instr) (taken : Bool) (target : Word) : (s.emitBranch j taken target).i = s.i := by unfold State.emitBranch; split <;> rfl
@[simp] theorem State.emitBranch_r (s : State) (j : Instr) (taken : Bool) (target : Word) : (s.emitBranch j taken target).r = s.r := by unfold State.emitBranch; split <;> rfl
@[simp] theorem State.emitBranch_iff1 (s : State) (j : Instr) (taken : Bool) (target : Word) : (s.emitBranch j taken target).iff1 = s.iff1 := by unfold State.emitBranch; split <;> rfl
@[simp] theorem State.emitBranch_iff2 (s : State) (j : Instr) (taken : Bool) (target : Word) : (s.emitBranch j taken target).iff2 = s.iff2 := by unfold State.emitBranch; split <;> rfl
@[simp] theorem State.emitBranch_im (s : State) (j : Instr) (taken : Bool) (target : Word) : (s.emitBranch j taken target).im = s.im := by unfold State.emitBranch; split <;> rfl
@[simp] theorem State.emitBranch_halted (s : State) (j : Instr) (taken : Bool) (target : Word) : (s.emitBranch j taken target).halted = s.halted := by unfold State.emitBranch; split <;> rfl
@[simp] theorem State.emitBranch_eiDelay (s : State) (j : Instr) (taken : Bool) (target : Word) : (s.emitBranch j taken target).eiDelay = s.eiDelay := by unfold State.emitBranch; split <;> rfl
@[simp] theorem State.emitBranch_intPending (s : State) (j : Instr) (taken : Bool) (target : Word) : (s.emitBranch j taken target).intPending = s.intPending := by unfold State.emitBranch; split <;> rfl
@[simp] theorem State.emitBranch_intBus (s : State) (j : Instr) (taken : Bool) (target : Word) : (s.emitBranch j taken target).intBus = s.intBus := by unfold State.emitBranch; split <;> rfl
@[simp] theorem State.emitBranch_nmiPending (s : State) (j : Instr) (taken : Bool) (target : Word) : (s.emitBranch j taken target).nmiPending = s.nmiPending := by unfold State.emitBranch; split <;> rfl
@[simp] theorem State.emitBranch_tacts (s : State) (j : Instr) (taken : Bool) (target : Word) : (s.emitBranch j taken target).tacts = s.tacts := by unfold State.emitBranch; split <;> rfl
@[simp] theorem State.emitBranch_mem (s : State) (j : Instr) (taken : Bool) (target : Word) : (s.emitBranch j taken target).mem = s.mem := by unfold State.emitBranch; split <;> rfl
@[simp] theorem State.emitBranch_memMap (s : State) (j : Instr) (taken : Bool) (target : Word) : (s.emitBranch j taken target).memMap = s.memMap := by unfold State.emitBranch; split <;> rfl
@[simp] theorem State.emitBranch_portInputs (s : State) (j : Instr) (taken : Bool) (target : Word) : (s.emitBranch j taken target).portInputs = s.portInputs := by unfold State.emitBranch; split <;> rfl
@[simp] theorem State.emitBranch_portReads (s : State) (j : Instr) (taken : Bool) (target : Word) : (s.emitBranch j taken target).portReads = s.portReads := by unfold State.emitBranch; split <;> rfl
@[simp] theorem State.emitBranch_bus (s : State) (j : Instr) (taken : Bool) (target : Word) : (s.emitBranch j taken target).bus = s.bus := by unfold State.emitBranch; split <;> rfl
@[simp] theorem State.emitBranch_branchObserver (s : State) (j : Instr) (taken : Bool) (target : Word) : (s.emitBranch j taken target).branchObserver = s.branchObserver := by unfold State.emitBranch; split <;> rfl
@[simp] theorem State.emitBranch_stackObserver (s : State) (j : Instr) (taken : Bool) (target : Word) : (s.emitBranch j taken target).stackObserver = s.stackObserver := by unfold State.emitBranch; split <;> rfl
@[simp] theorem State.emitBranch_stackLog (s : State) (j : Instr) (taken : Bool) (target : Word) : (s.emitBranch j taken target).stackLog = s.stackLog := by unfold State.emitBranch; split <;> rfl
@[simp] theorem State.emitBranch_opAddr (s : State) (j : Instr) (taken : Bool) (target : Word) : (s.emitBranch j taken target).opAddr = s.opAddr := by unfold State.emitBranch; split <;> rfl
@[simp] theorem State.emitBranch_opTacts (s : State) (j : Instr) (taken : Bool) (target : Word) : (s.emitBranch j taken target).opTacts = s.opTacts := by unfold State.emitBranch; split <;> rfl
theorem State.emitBranch_branchLog (s : State) (j : Instr) (taken : Bool) (target : Word) : (s.emitBranch j taken target).branchLog =
    if s.branchObserver then ⟨s.opAddr, .instr j, taken, target, s.opTacts⟩ :: s.branchLog else s.branchLog := by unfold State.emitBranch; split <;> rfl

/-! ## emitPointer -/

@[simp] theorem State.emitPointer_a (s : State) (j : Instr) (v : Word) : (s.emitPointer j v).a = s.a := by unfold State.emitPointer; split <;> rfl
@[simp] theorem State.emitPointer_f (s : State) (j : Instr) (v : Word) : (s.emitPointer j v).f = s.f := by unfold State.emitPointer; split <;> rfl
@[simp] theorem State.emitPointer_b (s : State) (j : Instr) (v : Word) : (s.emitPointer j v).b = s.b := by unfold State.emitPointer; split <;> rfl
@[simp] theorem State.emitPointer_c (s : State) (j : Instr) (v : Word) : (s.emitPointer j v).c = s.c := by unfold State.emitPointer; split <;> rfl
@[simp] theorem State.emitPointer_d (s : State) (j : Instr) (v : Word) : (s.emitPointer j v).d = s.d := by unfold State.emitPointer; split <;> rfl
@[simp] theorem State.emitPointer_e (s : State) (j : Instr) (v : Word) : (s.emitPointer j v).e = s.e := by unfold State.emitPointer; split <;> rfl
@[simp] theorem State.emitPointer_h (s : State) (j : Instr) (v : Word) : (s.emitPointer j v).h = s.h := by unfold State.emitPointer; split <;> rfl
@[simp] theorem State.emitPointer_l (s : State) (j : Instr) (v : Word) : (s.emitPointer j v).l = s.l := by unfold State.emitPointer; split <;> rfl
@[simp] theorem State.emitPointer_a_shadow (s : State) (j : Instr) (v : Word) : (s.emitPointer j v).a' = s.a' := by unfold State.emitPointer; split <;> rfl
@[simp] theorem State.emitPointer_f_shadow (s : State) (j : Instr) (v : Word) : (s.emitPointer j v).f' = s.f' := by unfold State.emitPointer; split <;> rfl
@[simp] theorem State.emitPointer_b_shadow (s : State) (j : Instr) (v : Word) : (s.emitPointer j v).b' = s.b' := by unfold State.emitPointer; split <;> rfl
@[simp] theorem State.emitPointer_c_shadow (s : State) (j : Instr) (v : Word) : (s.emitPointer j v).c' = s.c' := by unfold State.emitPointer; split <;> rfl
@[simp] theorem State.emitPointer_d_shadow (s : State) (j : Instr) (v : Word) : (s.emitPointer j v).d' = s.d' := by unfold State.emitPointer; split <;> rfl
@[simp] theorem State.emitPointer_e_shadow (s : State) (j : Instr) (v : Word) : (s.emitPointer j v).e' = s.e' := by unfold State.emitPointer; split <;> rfl
@[simp] theorem State.emitPointer_h_shadow (s : State) (j : Instr) (v : Word) : (s.emitPointer j v).h' = s.h' := by unfold State.emitPointer; split <;> rfl
@[simp] theorem State.emitPointer_l_shadow (s : State) (j : Instr) (v : Word) : (s.emitPointer j v).l' = s.l' := by unfold State.emitPointer; split <;> rfl
@[simp] theorem State.emitPointer_ix (s : State) (j : Instr) (v : Word) : (s.emitPointer j v).ix = s.ix := by unfold State.emitPointer; split <;> rfl
@[simp] theorem State.emitPointer_iy (s : State) (j : Instr) (v : Word) : (s.emitPointer j v).iy = s.iy := by unfold State.emitPointer; split <;> rfl
@[simp] theorem State.emitPointer_sp (s : State) (j : Instr) (v : Word) : (s.emitPointer j v).sp = s.sp := by unfold State.emitPointer; split <;> rfl
@[simp] theorem State.emitPointer_pc (s : State) (j : Instr) (v : Word) : (s.emitPointer j v).pc = s.pc := by unfold State.emitPointer; split <;> rfl
@[simp] theorem State.emitPointer_wz (s : State) (j : Instr) (v : Word) : (s.emitPointer j v).wz = s.wz := by unfold State.emitPointer; split <;> rfl
@[simp] theorem State.emitPointer_i (s : State) (j : Instr) (v : Word) : (s.emitPointer j v).i = s.i := by unfold State.emitPointer; split <;> rfl
@[simp] theorem State.emitPointer_r (s : State) (j : Instr) (v : Word) : (s.emitPointer j v).r = s.r := by unfold State.emitPointer; split <;> rfl
@[simp] theorem State.emitPointer_iff1 (s : State) (j : Instr) (v : Word) : (s.emitPointer j v).iff1 = s.iff1 := by unfold State.emitPointer; split <;> rfl
@[simp] theorem State.emitPointer_iff2 (s : State) (j : Instr) (v : Word) : (s.emitPointer j v).iff2 = s.iff2 := by unfold State.emitPointer; split <;> rfl
@[simp] theorem State.emitPointer_im (s : State) (j : Instr) (v : Word) : (s.emitPointer j v).im = s.im := by unfold State.emitPointer; split <;> rfl
@[simp] theorem State.emitPointer_halted (s : State) (j : Instr) (v : Word) : (s.emitPointer j v).halted = s.halted := by unfold State.emitPointer; split <;> rfl
@[simp] theorem State.emitPointer_eiDelay (s : State) (j : Instr) (v : Word) : (s.emitPointer j v).eiDelay = s.eiDelay := by unfold State.emitPointer; split <;> rfl
@[simp] theorem State.emitPointer_intPending (s : State) (j : Instr) (v : Word) : (s.emitPointer j v).intPending = s.intPending := by unfold State.emitPointer; split <;> rfl
@[simp] theorem State.emitPointer_intBus (s : State) (j : Instr) (v : Word) : (s.emitPointer j v).intBus = s.intBus := by unfold State.emitPointer; split <;> rfl
@[simp] theorem State.emitPointer_nmiPending (s : State) (j : Instr) (v : Word) : (s.emitPointer j v).nmiPending = s.nmiPending := by unfold State.emitPointer; split <;> rfl
@[simp] theorem State.emitPointer_tacts (s : State) (j : Instr) (v : Word) : (s.emitPointer j v).tacts = s.tacts := by unfold State.emitPointer; split <;> rfl
@[simp] theorem State.emitPointer_mem (s : State) (j : Instr) (v : Word) : (s.emitPointer j v).mem = s.mem := by unfold State.emitPointer; split <;> rfl
@[simp] theorem State.emitPointer_memMap (s : State) (j : Instr) (v : Word) : (s.emitPointer j v).memMap = s.memMap := by unfold State.emitPointer; split <;> rfl
@[simp] theorem State.emitPointer_portInputs (s : State) (j : Instr) (v : Word) : (s.emitPointer j v).portInputs = s.portInputs := by unfold State.emitPointer; split <;> rfl
@[simp] theorem State.emitPointer_portReads (s : State) (j : Instr) (v : Word) : (s.emitPointer j v).portReads = s.portReads := by unfold State.emitPointer; split <;> rfl
@[simp] theorem State.emitPointer_bus (s : State) (j : Instr) (v : Word) : (s.emitPointer j v).bus = s.bus := by unfold State.emitPointer; split <;> rfl
@[simp] theorem State.emitPointer_branchObserver (s : State) (j : Instr) (v : Word) : (s.emitPointer j v).branchObserver = s.branchObserver := by unfold State.emitPointer; split <;> rfl
@[simp] theorem State.emitPointer_stackObserver (s : State) (j : Instr) (v : Word) : (s.emitPointer j v).stackObserver = s.stackObserver := by unfold State.emitPointer; split <;> rfl
@[simp] theorem State.emitPointer_branchLog (s : State) (j : Instr) (v : Word) : (s.emitPointer j v).branchLog = s.branchLog := by unfold State.emitPointer; split <;> rfl
@[simp] theorem State.emitPointer_opAddr (s : State) (j : Instr) (v : Word) : (s.emitPointer j v).opAddr = s.opAddr := by unfold State.emitPointer; split <;> rfl
@[simp] theorem State.emitPointer_opTacts (s : State) (j : Instr) (v : Word) : (s.emitPointer j v).opTacts = s.opTacts := by unfold State.emitPointer; split <;> rfl
theorem State.emitPointer_stackLog (s : State) (j : Instr) (v : Word) : (s.emitPointer j v).stackLog =
    if s.stackObserver then .pointer s.opAddr (.instr j) s.sp v s.opTacts :: s.stackLog else s.stackLog := by unfold State.emitPointer; split <;> rfl

/-! ## emitContent -/

@[simp] theorem State.emitContent_a (s : State) (o : Origin) (x : StackAccess) (v : Word) : (s.emitContent o x v).a = s.a := by unfold State.emitContent; split <;> rfl
@[simp] theorem State.emitContent_f (s : State) (o : Origin) (x : StackAccess) (v : Word) : (s.emitContent o x v).f = s.f := by unfold State.emitContent; split <;> rfl
@[simp] theorem State.emitContent_b (s : State) (o : Origin) (x : StackAccess) (v : Word) : (s.emitContent o x v).b = s.b := by unfold State.emitContent; split <;> rfl
@[simp] theorem State.emitContent_c (s : State) (o : Origin) (x : StackAccess) (v : Word) : (s.emitContent o x v).c = s.c := by unfold State.emitContent; split <;> rfl
@[simp] theorem State.emitContent_d (s : State) (o : Origin) (x : StackAccess) (v : Word) : (s.emitContent o x v).d = s.d := by unfold State.emitContent; split <;> rfl
@[simp] theorem State.emitContent_e (s : State) (o : Origin) (x : StackAccess) (v : Word) : (s.emitContent o x v).e = s.e := by unfold State.emitContent; split <;> rfl
@[simp] theorem State.emitContent_h (s : State) (o : Origin) (x : StackAccess) (v : Word) : (s.emitContent o x v).h = s.h := by unfold State.emitContent; split <;> rfl
@[simp] theorem State.emitContent_l (s : State) (o : Origin) (x : StackAccess) (v : Word) : (s.emitContent o x v).l = s.l := by unfold State.emitContent; split <;> rfl
@[simp] theorem State.emitContent_a_shadow (s : State) (o : Origin) (x : StackAccess) (v : Word) : (s.emitContent o x v).a' = s.a' := by unfold State.emitContent; split <;> rfl
@[simp] theorem State.emitContent_f_shadow (s : State) (o : Origin) (x : StackAccess) (v : Word) : (s.emitContent o x v).f' = s.f' := by unfold State.emitContent; split <;> rfl
@[simp] theorem State.emitContent_b_shadow (s : State) (o : Origin) (x : StackAccess) (v : Word) : (s.emitContent o x v).b' = s.b' := by unfold State.emitContent; split <;> rfl
@[simp] theorem State.emitContent_c_shadow (s : State) (o : Origin) (x : StackAccess) (v : Word) : (s.emitContent o x v).c' = s.c' := by unfold State.emitContent; split <;> rfl
@[simp] theorem State.emitContent_d_shadow (s : State) (o : Origin) (x : StackAccess) (v : Word) : (s.emitContent o x v).d' = s.d' := by unfold State.emitContent; split <;> rfl
@[simp] theorem State.emitContent_e_shadow (s : State) (o : Origin) (x : StackAccess) (v : Word) : (s.emitContent o x v).e' = s.e' := by unfold State.emitContent; split <;> rfl
@[simp] theorem State.emitContent_h_shadow (s : State) (o : Origin) (x : StackAccess) (v : Word) : (s.emitContent o x v).h' = s.h' := by unfold State.emitContent; split <;> rfl
@[simp] theorem State.emitContent_l_shadow (s : State) (o : Origin) (x : StackAccess) (v : Word) : (s.emitContent o x v).l' = s.l' := by unfold State.emitContent; split <;> rfl
@[simp] theorem State.emitContent_ix (s : State) (o : Origin) (x : StackAccess) (v : Word) : (s.emitContent o x v).ix = s.ix := by unfold State.emitContent; split <;> rfl
@[simp] theorem State.emitContent_iy (s : State) (o : Origin) (x : StackAccess) (v : Word) : (s.emitContent o x v).iy = s.iy := by unfold State.emitContent; split <;> rfl
@[simp] theorem State.emitContent_sp (s : State) (o : Origin) (x : StackAccess) (v : Word) : (s.emitContent o x v).sp = s.sp := by unfold State.emitContent; split <;> rfl
@[simp] theorem State.emitContent_pc (s : State) (o : Origin) (x : StackAccess) (v : Word) : (s.emitContent o x v).pc = s.pc := by unfold State.emitContent; split <;> rfl
@[simp] theorem State.emitContent_wz (s : State) (o : Origin) (x : StackAccess) (v : Word) : (s.emitContent o x v).wz = s.wz := by unfold State.emitContent; split <;> rfl
@[simp] theorem State.emitContent_i (s : State) (o : Origin) (x : StackAccess) (v : Word) : (s.emitContent o x v).i = s.i := by unfold State.emitContent; split <;> rfl
@[simp] theorem State.emitContent_r (s : State) (o : Origin) (x : StackAccess) (v : Word) : (s.emitContent o x v).r = s.r := by unfold State.emitContent; split <;> rfl
@[simp] theorem State.emitContent_iff1 (s : State) (o : Origin) (x : StackAccess) (v : Word) : (s.emitContent o x v).iff1 = s.iff1 := by unfold State.emitContent; split <;> rfl
@[simp] theorem State.emitContent_iff2 (s : State) (o : Origin) (x : StackAccess) (v : Word) : (s.emitContent o x v).iff2 = s.iff2 := by unfold State.emitContent; split <;> rfl
@[simp] theorem State.emitContent_im (s : State) (o : Origin) (x : StackAccess) (v : Word) : (s.emitContent o x v).im = s.im := by unfold State.emitContent; split <;> rfl
@[simp] theorem State.emitContent_halted (s : State) (o : Origin) (x : StackAccess) (v : Word) : (s.emitContent o x v).halted = s.halted := by unfold State.emitContent; split <;> rfl
@[simp] theorem State.emitContent_eiDelay (s : State) (o : Origin) (x : StackAccess) (v : Word) : (s.emitContent o x v).eiDelay = s.eiDelay := by unfold State.emitContent; split <;> rfl
@[simp] theorem State.emitContent_intPending (s : State) (o : Origin) (x : StackAccess) (v : Word) : (s.emitContent o x v).intPending = s.intPending := by unfold State.emitContent; split <;> rfl
@[simp] theorem State.emitContent_intBus (s : State) (o : Origin) (x : StackAccess) (v : Word) : (s.emitContent o x v).intBus = s.intBus := by unfold State.emitContent; split <;> rfl
@[simp] theorem State.emitContent_nmiPending (s : State) (o : Origin) (x : StackAccess) (v : Word) : (s.emitContent o x v).nmiPending = s.nmiPending := by unfold State.emitContent; split <;> rfl
@[simp] theorem State.emitContent_tacts (s : State) (o : Origin) (x : StackAccess) (v : Word) : (s.emitContent o x v).tacts = s.tacts := by unfold State.emitContent; split <;> rfl
@[simp] theorem State.emitContent_mem (s : State) (o : Origin) (x : StackAccess) (v : Word) : (s.emitContent o x v).mem = s.mem := by unfold State.emitContent; split <;> rfl
@[simp] theorem State.emitContent_memMap (s : State) (o : Origin) (x : StackAccess) (v : Word) : (s.emitContent o x v).memMap = s.memMap := by unfold State.emitContent; split <;> rfl
@[simp] theorem State.emitContent_portInputs (s : State) (o : Origin) (x : StackAccess) (v : Word) : (s.emitContent o x v).portInputs = s.portInputs := by unfold State.emitContent; split <;> rfl
@[simp] theorem State.emitContent_portReads (s : State) (o : Origin) (x : StackAccess) (v : Word) : (s.emitContent o x v).portReads = s.portReads := by unfold State.emitContent; split <;> rfl
@[simp] theorem State.emitContent_bus (s : State) (o : Origin) (x : StackAccess) (v : Word) : (s.emitContent o x v).bus = s.bus := by unfold State.emitContent; split <;> rfl
@[simp] theorem State.emitContent_branchObserver (s : State) (o : Origin) (x : StackAccess) (v : Word) : (s.emitContent o x v).branchObserver = s.branchObserver := by unfold State.emitContent; split <;> rfl
@[simp] theorem State.emitContent_stackObserver (s : State) (o : Origin) (x : StackAccess) (v : Word) : (s.emitContent o x v).stackObserver = s.stackObserver := by unfold State.emitContent; split <;> rfl
@[simp] theorem State.emitContent_branchLog (s : State) (o : Origin) (x : StackAccess) (v : Word) : (s.emitContent o x v).branchLog = s.branchLog := by unfold State.emitContent; split <;> rfl
@[simp] theorem State.emitContent_opAddr (s : State) (o : Origin) (x : StackAccess) (v : Word) : (s.emitContent o x v).opAddr = s.opAddr := by unfold State.emitContent; split <;> rfl
@[simp] theorem State.emitContent_opTacts (s : State) (o : Origin) (x : StackAccess) (v : Word) : (s.emitContent o x v).opTacts = s.opTacts := by unfold State.emitContent; split <;> rfl
theorem State.emitContent_stackLog (s : State) (o : Origin) (x : StackAccess) (v : Word) : (s.emitContent o x v).stackLog =
    if s.stackObserver then .content s.opAddr o x v s.sp s.opTacts :: s.stackLog else s.stackLog := by unfold State.emitContent; split <;> rfl

/-! ## tickRedundant -/

@[simp] theorem State.tickRedundant_a (s : State) (x : Option IndexReg) : (s.tickRedundant x).a = s.a := by cases x <;> rfl
@[simp] theorem State.tickRedundant_f (s : State) (x : Option IndexReg) : (s.tickRedundant x).f = s.f := by cases x <;> rfl
@[simp] theorem State.tickRedundant_b (s : State) (x : Option IndexReg) : (s.tickRedundant x).b = s.b := by cases x <;> rfl
@[simp] theorem State.tickRedundant_c (s : State) (x : Option IndexReg) : (s.tickRedundant x).c = s.c := by cases x <;> rfl
@[simp] theorem State.tickRedundant_d (s : State) (x : Option IndexReg) : (s.tickRedundant x).d = s.d := by cases x <;> rfl
@[simp] theorem State.tickRedundant_e (s : State) (x : Option IndexReg) : (s.tickRedundant x).e = s.e := by cases x <;> rfl
@[simp] theorem State.tickRedundant_h (s : State) (x : Option IndexReg) : (s.tickRedundant x).h = s.h := by cases x <;> rfl
@[simp] theorem State.tickRedundant_l (s : State) (x : Option IndexReg) : (s.tickRedundant x).l = s.l := by cases x <;> rfl
@[simp] theorem State.tickRedundant_a_shadow (s : State) (x : Option IndexReg) : (s.tickRedundant x).a' = s.a' := by cases x <;> rfl
@[simp] theorem State.tickRedundant_f_shadow (s : State) (x : Option IndexReg) : (s.tickRedundant x).f' = s.f' := by cases x <;> rfl
@[simp] theorem State.tickRedundant_b_shadow (s : State) (x : Option IndexReg) : (s.tickRedundant x).b' = s.b' := by cases x <;> rfl
@[simp] theorem State.tickRedundant_c_shadow (s : State) (x : Option IndexReg) : (s.tickRedundant x).c' = s.c' := by cases x <;> rfl
@[simp] theorem State.tickRedundant_d_shadow (s : State) (x : Option IndexReg) : (s.tickRedundant x).d' = s.d' := by cases x <;> rfl
@[simp] theorem State.tickRedundant_e_shadow (s : State) (x : Option IndexReg) : (s.tickRedundant x).e' = s.e' := by cases x <;> rfl
@[simp] theorem State.tickRedundant_h_shadow (s : State) (x : Option IndexReg) : (s.tickRedundant x).h' = s.h' := by cases x <;> rfl
@[simp] theorem State.tickRedundant_l_shadow (s : State) (x : Option IndexReg) : (s.tickRedundant x).l' = s.l' := by cases x <;> rfl
@[simp] theorem State.tickRedundant_ix (s : State) (x : Option IndexReg) : (s.tickRedundant x).ix = s.ix := by cases x <;> rfl
@[simp] theorem State.tickRedundant_iy (s : State) (x : Option IndexReg) : (s.tickRedundant x).iy = s.iy := by cases x <;> rfl
@[simp] theorem State.tickRedundant_sp (s : State) (x : Option IndexReg) : (s.tickRedundant x).sp = s.sp := by cases x <;> rfl
@[simp] theorem State.tickRedundant_pc (s : State) (x : Option IndexReg) : (s.tickRedundant x).pc = s.pc := by cases x <;> rfl
@[simp] theorem State.tickRedundant_wz (s : State) (x : Option IndexReg) : (s.tickRedundant x).wz = s.wz := by cases x <;> rfl
@[simp] theorem State.tickRedundant_i (s : State) (x : Option IndexReg) : (s.tickRedundant x).i = s.i := by cases x <;> rfl
@[simp] theorem State.tickRedundant_r (s : State) (x : Option IndexReg) : (s.tickRedundant x).r = s.r := by cases x <;> rfl
@[simp] theorem State.tickRedundant_iff1 (s : State) (x : Option IndexReg) : (s.tickRedundant x).iff1 = s.iff1 := by cases x <;> rfl
@[simp] theorem State.tickRedundant_iff2 (s : State) (x : Option IndexReg) : (s.tickRedundant x).iff2 = s.iff2 := by cases x <;> rfl
@[simp] theorem State.tickRedundant_im (s : State) (x : Option IndexReg) : (s.tickRedundant x).im = s.im := by cases x <;> rfl
@[simp] theorem State.tickRedundant_halted (s : State) (x : Option IndexReg) : (s.tickRedundant x).halted = s.halted := by cases x <;> rfl
@[simp] theorem State.tickRedundant_eiDelay (s : State) (x : Option IndexReg) : (s.tickRedundant x).eiDelay = s.eiDelay := by cases x <;> rfl
@[simp] theorem State.tickRedundant_intPending (s : State) (x : Option IndexReg) : (s.tickRedundant x).intPending = s.intPending := by cases x <;> rfl
@[simp] theorem State.tickRedundant_intBus (s : State) (x : Option IndexReg) : (s.tickRedundant x).intBus = s.intBus := by cases x <;> rfl
@[simp] theorem State.tickRedundant_nmiPending (s : State) (x : Option IndexReg) : (s.tickRedundant x).nmiPending = s.nmiPending := by cases x <;> rfl
@[simp] theorem State.tickRedundant_mem (s : State) (x : Option IndexReg) : (s.tickRedundant x).mem = s.mem := by cases x <;> rfl
@[simp] theorem State.tickRedundant_memMap (s : State) (x : Option IndexReg) : (s.tickRedundant x).memMap = s.memMap := by cases x <;> rfl
@[simp] theorem State.tickRedundant_portInputs (s : State) (x : Option IndexReg) : (s.tickRedundant x).portInputs = s.portInputs := by cases x <;> rfl
@[simp] theorem State.tickRedundant_portReads (s : State) (x : Option IndexReg) : (s.tickRedundant x).portReads = s.portReads := by cases x <;> rfl
@[simp] theorem State.tickRedundant_bus (s : State) (x : Option IndexReg) : (s.tickRedundant x).bus = s.bus := by cases x <;> rfl
@[simp] theorem State.tickRedundant_branchObserver (s : State) (x : Option IndexReg) : (s.tickRedundant x).branchObserver = s.branchObserver := by cases x <;> rfl
@[simp] theorem State.tickRedundant_stackObserver (s : State) (x : Option IndexReg) : (s.tickRedundant x).stackObserver = s.stackObserver := by cases x <;> rfl
@[simp] theorem State.tickRedundant_branchLog (s : State) (x : Option IndexReg) : (s.tickRedundant x).branchLog = s.branchLog := by cases x <;> rfl
@[simp] theorem State.tickRedundant_stackLog (s : State) (x : Option IndexReg) : (s.tickRedundant x).stackLog = s.stackLog := by cases x <;> rfl
@[simp] theorem State.tickRedundant_opAddr (s : State) (x : Option IndexReg) : (s.tickRedundant x).opAddr = s.opAddr := by cases x <;> rfl
@[simp] theorem State.tickRedundant_opTacts (s : State) (x : Option IndexReg) : (s.tickRedundant x).opTacts = s.opTacts := by cases x <;> rfl

end Sys2Proof.Machine
end

