-- ==== Sys2Proof/Laws/Ops.lean ====
section
/-! SUPPORT. One lemma for each shared operation: everything it does, as one update of the state before it. -/

namespace Sys2Proof.Machine

/-! ## Memory, ports and the stack -/

theorem State.memRead16_eq (s : State) (a : Word) : s.memRead16 a =
    (word (s.peekNext a (a + 1)) (s.peek a),
      { s with bus := .readByte (a + 1) (s.peekNext a (a + 1)) :: .readByte a (s.peek a) :: s.bus }) := rfl

theorem State.memWrite16_eq (s : State) (a v : Word) : s.memWrite16 a v =
    { s with
      mem := (s.mem.store s.memMap a (lo v)).store s.memMap (a + 1) (hi v), bus := .writeByte (a + 1) (hi v) :: .writeByte a (lo v) :: s.bus } := rfl

theorem State.push16_eq (s : State) (v : Word) : s.push16 v =
    { s with
      sp := s.sp - 2, mem := (s.mem.store s.memMap (s.sp - 1) (hi v)).store s.memMap (s.sp - 2) (lo v),
      bus := .writeByte (s.sp - 2) (lo v) :: .writeByte (s.sp - 1) (hi v) :: s.bus } := by
  simp only [State.push16, State.memWrite, sub_one_sub_one]

theorem State.pop16_eq (s : State) : s.pop16 =
    (word (s.peekNext s.sp (s.sp + 1)) (s.peek s.sp),
      { s with
        sp := s.sp + 2, bus := .readByte (s.sp + 1) (s.peekNext s.sp (s.sp + 1)) :: .readByte s.sp (s.peek s.sp) :: s.bus }) := rfl

theorem State.emitBranch_eq (s : State) (i : Instr) (taken : Bool) (target : Word) :
    s.emitBranch i taken target = { s with branchLog := s.branchLogWith i taken target } := by
  unfold State.emitBranch State.branchLogWith; split <;> rfl

theorem State.emitPointer_eq (s : State) (i : Instr) (newSP : Word) :
    s.emitPointer i newSP = { s with stackLog := s.stackLogWithSp i newSP } := by
  unfold State.emitPointer State.stackLogWithSp; split <;> rfl

/-- The record of a content event names the SP of before; here SP is already moved. -/
theorem State.emitContent_eq (s : State) (o : Origin) (x : StackAccess) (oldSP : Word) :
    s.emitContent o x oldSP = { s with stackLog := ({ s with sp := oldSP } : State).stackLogWith o x s.sp } := by
  unfold State.emitContent State.stackLogWith; dsimp only; split <;> rfl

theorem State.pushFor_eq (s : State) (o : Origin) (v : Word) : s.pushFor o v =
    { s with
      sp := s.sp - 2, mem := (s.mem.store s.memMap (s.sp - 1) (hi v)).store s.memMap (s.sp - 2) (lo v),
      bus := .writeByte (s.sp - 2) (lo v) :: .writeByte (s.sp - 1) (hi v) :: s.bus,
      stackLog := s.stackLogWith o (.push v) (s.sp - 2) } := by
  rw [State.pushFor, State.emitContent_eq, State.push16_eq]; rfl

theorem State.popFor_eq (s : State) (o : Origin) : s.popFor o =
    (word (s.peekNext s.sp (s.sp + 1)) (s.peek s.sp),
      { s with
        sp := s.sp + 2, bus := .readByte (s.sp + 1) (s.peekNext s.sp (s.sp + 1)) :: .readByte s.sp (s.peek s.sp) :: s.bus,
        stackLog := s.stackLogWith o (.pop (word (s.peekNext s.sp (s.sp + 1)) (s.peek s.sp))) (s.sp + 2) }) := by
  rw [State.popFor, State.emitContent_eq, State.pop16_eq]; rfl

theorem State.loadPair_eq (s : State) (i : Instr) (p : RegPair) (v : Word) : s.loadPair i p v =
    ({ s with stackLog := if p = .sp then s.stackLogWithSp i v else s.stackLog } : State).setPair p v := by
  cases p <;> simp [State.loadPair, State.setPair, State.emitPointer_eq]

/-! ## Jumps, calls and returns -/

theorem State.jump_eq (s : State) (i : Instr) (target : Word) :
    s.jump i target = { s with pc := target, branchLog := s.branchLogWith i true target } := by
  rw [State.jump, State.emitBranch_eq]

theorem State.call_eq (s : State) (i : Instr) (target : Word) : s.call i target =
    { s with
      sp := s.sp - 2, mem := (s.mem.store s.memMap (s.sp - 1) (hi s.pc)).store s.memMap (s.sp - 2) (lo s.pc),
      bus := .writeByte (s.sp - 2) (lo s.pc) :: .writeByte (s.sp - 1) (hi s.pc) :: s.bus,
      stackLog := s.stackLogWith (.instr i) (.push s.pc) (s.sp - 2), branchLog := s.branchLogWith i true target,
      pc := target, wz := target } := by
  rw [State.call, State.pushFor_eq, State.emitBranch_eq]; rfl

theorem State.returnFrom_eq (s : State) (i : Instr) : s.returnFrom i =
    { s with
      sp := s.sp + 2, bus := .readByte (s.sp + 1) (s.peekNext s.sp (s.sp + 1)) :: .readByte s.sp (s.peek s.sp) :: s.bus,
      stackLog := s.stackLogWith (.instr i) (.pop (word (s.peekNext s.sp (s.sp + 1)) (s.peek s.sp))) (s.sp + 2),
      branchLog := s.branchLogWith i true (word (s.peekNext s.sp (s.sp + 1)) (s.peek s.sp)),
      pc := word (s.peekNext s.sp (s.sp + 1)) (s.peek s.sp), wz := word (s.peekNext s.sp (s.sp + 1)) (s.peek s.sp) } := by
  simp only [State.returnFrom, State.emitBranch_eq, State.popFor_eq]; rfl

theorem State.returnFromInterrupt_eq (s : State) (i : Instr) : s.returnFromInterrupt i = { s.returnFrom i with iff1 := s.iff2 } := rfl

/-! ## Block instructions -/

theorem State.exchangeTop_eq (s : State) (i : Instr) (v : Word) : s.exchangeTop i v =
    (word (s.peekNext s.sp (s.sp + 1)) (s.peek s.sp),
      { s with
        mem := (s.mem.store s.memMap (s.sp + 1) (hi v)).store s.memMap s.sp (lo v),
        bus := .writeByte s.sp (lo v) :: .writeByte (s.sp + 1) (hi v) :: .readByte (s.sp + 1) (s.peekNext s.sp (s.sp + 1)) ::
          .readByte s.sp (s.peek s.sp) :: s.bus,
        stackLog := s.stackLogWith (.instr i) (.exchange (word (s.peekNext s.sp (s.sp + 1)) (s.peek s.sp)) v) s.sp }) := by
  simp only [State.exchangeTop, State.emitContent_eq, State.memRead16_eq]; rfl

theorem State.moveBlock_eq (s : State) (delta : Word) : s.moveBlock delta =
    { s with
      h := hi (s.hl + delta), l := lo (s.hl + delta), d := hi (s.de + delta), e := lo (s.de + delta),
      b := hi (s.bc - 1), c := lo (s.bc - 1), f := (ldiFlags (s.peek s.hl) s.a (s.bc - 1) s.flags).toByte,
      mem := s.mem.store s.memMap s.de (s.peek s.hl), bus := .writeByte s.de (s.peek s.hl) :: .readByte s.hl (s.peek s.hl) :: s.bus } := by
  simp only [State.moveBlock, State.memRead, State.memWrite, State.note, State.setHl, State.setDe, State.setBc, State.setFlags]

theorem State.compareBlock_eq (s : State) (delta : Word) : s.compareBlock delta =
    { s with
      h := hi (s.hl + delta), l := lo (s.hl + delta), b := hi (s.bc - 1), c := lo (s.bc - 1), wz := s.wz + delta,
      f := (cpiFlags s.a (s.peek s.hl) (s.bc - 1) s.flags).toByte, bus := .readByte s.hl (s.peek s.hl) :: s.bus } := rfl

theorem State.repeatBlock_eq (s : State) (again : Bool) : s.repeatBlock again =
    { s with
      pc := if again then s.pc - 2 else s.pc, wz := if again then s.pc - 1 else s.wz,
      tacts := s.tacts + if again then 21 else 16 } := by
  cases again
  · rfl
  · simp only [State.repeatBlock, sub_two_add_one, if_true]

theorem State.repeatIo_eq (s : State) (again : Bool) : s.repeatIo again =
    { s with pc := if again then s.pc - 2 else s.pc, tacts := s.tacts + if again then 21 else 16 } := by
  cases again <;> rfl

theorem State.inBlock_eq (s : State) (delta : Word) (addend : Byte) : s.inBlock delta addend =
    { s with
      h := hi (s.hl + delta), l := lo (s.hl + delta), b := s.b - 1, wz := s.bc + delta,
      f := (blockIoFlags (s.portAnswer s.bc) (s.b - 1) addend).toByte, mem := s.mem.store s.memMap s.hl (s.portAnswer s.bc),
      portInputs := s.portInputs.tail, portReads := s.portReads + 1,
      bus := .writeByte s.hl (s.portAnswer s.bc) :: .readPort s.bc (s.portAnswer s.bc) :: s.bus } := rfl

theorem State.outBlock_eq (s : State) (delta : Word) : s.outBlock delta =
    { s with
      h := hi (s.hl + delta), l := lo (s.hl + delta), b := s.b - 1, wz := word (s.b - 1) s.c + delta,
      f := (blockIoFlags (s.peek s.hl) (s.b - 1) (lo (s.hl + delta))).toByte,
      bus := .writePort (word (s.b - 1) s.c) (s.peek s.hl) :: .readByte s.hl (s.peek s.hl) :: s.bus } := rfl

/-! ## Rotates and bits on memory -/

theorem State.rotateAt_eq (s : State) (k : RotKind) (a : Word) : s.rotateAt k a =
    { s with
      f := (rot k (s.peek a) s.flags.c).2.toByte, mem := s.mem.store s.memMap a (rot k (s.peek a) s.flags.c).1,
      bus := .writeByte a (rot k (s.peek a) s.flags.c).1 :: .readByte a (s.peek a) :: s.bus } := rfl

theorem State.modifyAt_eq (s : State) (g : Byte → Byte) (a : Word) : s.modifyAt g a =
    { s with mem := s.mem.store s.memMap a (g (s.peek a)), bus := .writeByte a (g (s.peek a)) :: .readByte a (s.peek a) :: s.bus } := rfl

theorem State.testAt_eq (s : State) (b : Fin 8) (a : Word) (x : Byte) : s.testAt b a x =
    { s with f := (bitFlags b (s.peek a) x s.flags).toByte, bus := .readByte a (s.peek a) :: s.bus } := rfl

/-! ## Fetching and stepping -/

/-- What a read returns depends on the memory, its kinds and the calls made before, and on nothing else of the state. -/
theorem State.bytesAt_congr {s t : State} (hm : t.mem = s.mem) (hk : t.memMap = s.memMap) (hb : t.bus = s.bus) (n : Nat) (a : Word) :
    t.bytesAt n a = s.bytesAt n a := by
  induction n generalizing s t a with
  | zero => rfl
  | succ n ih =>
    have hp : t.peek a = s.peek a := by simp only [State.peek, hm, hk, hb]
    simp only [State.bytesAt, hp]
    exact congrArg (_ :: ·) (ih (s := (s.memRead a).2) (t := (t.memRead a).2) hm hk (by simp only [State.memRead, State.note, hp, hb]) _)

theorem State.bytesAt_length (s : State) (n : Nat) (a : Word) : (s.bytesAt n a).length = n := by
  induction n generalizing s a with
  | zero => rfl
  | succ n ih => simp [State.bytesAt, ih]

/-- The prefix run is the number of leading prefixes of the bytes that the reads return. -/
theorem State.prefixRun_eq (s : State) (n : Nat) (a : Word) : s.prefixRun n a = leadingPrefixes (s.bytesAt n a) := by
  induction n generalizing s a with
  | zero => rfl
  | succ n ih => simp only [State.prefixRun, State.bytesAt, leadingPrefixes, Bool.or_eq_true, beq_iff_eq, ih]

/-- All of the bytes are prefixes exactly when the run is as long as they are. -/
theorem leadingPrefixes_eq_length (bytes : List Byte) : leadingPrefixes bytes = bytes.length ↔ ∀ b ∈ bytes, b = 0xDD ∨ b = 0xFD := by
  induction bytes with
  | nil => simp [leadingPrefixes]
  | cons b bs ih =>
    rw [List.forall_mem_cons, ← ih, leadingPrefixes]
    split
    · next h => exact ⟨fun e => ⟨h, Nat.succ.inj e⟩, fun e => congrArg Nat.succ e.2⟩
    · next h => exact ⟨fun e => (by cases e), fun e => absurd e.1 h⟩

theorem State.prefixesOnly_iff (s : State) : s.prefixesOnly = true ↔ s.allPrefixes := by
  rw [State.prefixesOnly, beq_iff_eq, State.prefixRun_eq, State.allPrefixes, ← leadingPrefixes_eq_length, State.bytesAt_length]; rfl

/-- Where no device is, the bytes of successive reads are the bytes of the memory. -/
theorem State.bytesAt_eq_map {s : State} {a : Word} {n : Nat} (h : ∀ k < n, s.memMap.kindAt (a + BitVec.ofNat 16 k) ≠ .device) :
    s.bytesAt n a = (List.range n).map fun k => s.mem.read (a + BitVec.ofNat 16 k) := by
  induction n generalizing s a with
  | zero => rfl
  | succ n ih =>
    have e : ∀ k, a + 1 + BitVec.ofNat 16 k = a + BitVec.ofNat 16 (k + 1) := fun k => by
      apply BitVec.eq_of_toNat_eq; simp [BitVec.toNat_add]; omega
    have h0 := h 0 (Nat.succ_pos n)
    rw [List.range_succ_eq_map, List.map_cons, List.map_map, State.bytesAt, ih (a := a + 1)]
    · rw [show a + BitVec.ofNat 16 0 = a from BitVec.add_zero a] at h0 ⊢
      rw [State.peek_of_ne_device h0]
      exact congrArg _ (List.map_congr_left fun k _ => by rw [e]; rfl)
    · intro k hk; rw [e]; exact h _ (by omega)

theorem State.readCalls_succ (s : State) (n : Nat) (a : Word) :
    s.readCalls (n + 1) a = (s.memRead a).2.readCalls n (a + 1) ++ [.readByte a (s.peek a)] := by
  simp only [State.readCalls, List.range_succ_eq_map, List.map_cons, List.map_map, List.reverse_cons, State.bytesAt, List.getD_cons_zero]
  congr 2
  · refine List.map_congr_left fun k _ => ?_
    simp only [Function.comp, List.getD_cons_succ]
    exact congrArg (BusEvent.readByte · _) (by apply BitVec.eq_of_toNat_eq; simp [BitVec.toNat_add]; omega)
  · rw [show a + BitVec.ofNat 16 0 = a from BitVec.add_zero a]

theorem State.fetchBytes_eq (s : State) (n : Nat) :
    s.fetchBytes n = { s with pc := s.pc + BitVec.ofNat 16 n, bus := s.readCalls n s.pc ++ s.bus } := by
  induction n generalizing s with
  | zero => simp [State.fetchBytes, State.readCalls]
  | succ n ih =>
    have hc : s.fetchByte.readCalls n (s.pc + 1) = (s.memRead s.pc).2.readCalls n (s.pc + 1) := by
      simp only [State.readCalls]; rw [State.bytesAt_congr (s := (s.memRead s.pc).2) (t := s.fetchByte) rfl rfl rfl]
    have hp : s.pc + 1 + BitVec.ofNat 16 n = s.pc + BitVec.ofNat 16 (n + 1) := by
      apply BitVec.eq_of_toNat_eq; simp [BitVec.toNat_add]; omega
    rw [State.fetchBytes, ih, State.readCalls_succ]
    simp only [State.fetchByte_pc, hc, hp, List.append_assoc, List.singleton_append]
    rfl

theorem State.fetchBytes_add (s : State) (m n : Nat) : (s.fetchBytes m).fetchBytes n = s.fetchBytes (m + n) := by
  induction m generalizing s with
  | zero => rw [Nat.zero_add]; rfl
  | succ m ih => rw [Nat.succ_add]; exact ih _

/-- 10_state.md R30: counting once more counts in the low seven bits and keeps bit 7. -/
theorem countR_count (r x : Byte) : countR ((r &&& 0x80) ||| (x &&& 0x7F)) = (r &&& 0x80) ||| ((x + 1) &&& 0x7F) := by
  have low : ∀ v : Byte, v &&& 0x7F = (v.setWidth 7).setWidth 8 := by decide
  have high : ∀ v : Byte, (v &&& 0x7F) &&& 0x80 = 0 := by decide
  have trunc : ((r &&& 0x80) ||| (x &&& 0x7F)).setWidth 7 = x.setWidth 7 := by
    rw [BitVec.setWidth_or, BitVec.setWidth_and, BitVec.setWidth_and]
    rw [show BitVec.setWidth 7 (0x80 : Byte) = 0#7 by decide, show BitVec.setWidth 7 (0x7F : Byte) = BitVec.allOnes 7 by decide,
      BitVec.and_allOnes, BitVec.and_zero, BitVec.zero_or]
  unfold countR
  congr 1
  · rw [BitVec.and_or_distrib_right, high, BitVec.and_assoc]; simp
  · have h7 : ∀ v w : Byte, (v + w).setWidth 7 = v.setWidth 7 + w.setWidth 7 := fun v w => BitVec.setWidth_add v w (by decide)
    rw [low (_ + 1), low (x + 1), h7, h7, trunc]

/-- The opcode fetches are reads that R counts. -/
theorem State.fetchOpcodes_eq (s : State) (m : Nat) :
    s.fetchOpcodes m = { s.fetchBytes m with r := (s.r &&& 0x80) ||| ((s.r + BitVec.ofNat 8 m) &&& 0x7F) } := by
  have keep : ∀ r : Byte, (r &&& 0x80) ||| (r &&& 0x7F) = r := by decide
  suffices h : ∀ (m : Nat) (t : State) (x : Byte), t.r = (s.r &&& 0x80) ||| (x &&& 0x7F) →
      t.fetchOpcodes m = { t.fetchBytes m with r := (s.r &&& 0x80) ||| ((x + BitVec.ofNat 8 m) &&& 0x7F) } from h m s s.r (keep _).symm
  intro m
  induction m with
  | zero => intro t x h; simp only [State.fetchOpcodes, State.fetchBytes]; rw [show x + BitVec.ofNat 8 0 = x from BitVec.add_zero x, ← h]
  | succ m ih =>
    intro t x h
    rw [State.fetchOpcodes, ih t.fetchOpcode (x + 1) (by rw [← countR_count, ← h]; rfl), State.fetchBytes,
      State.fetchBytes_eq t.fetchByte, State.fetchBytes_eq t.fetchOpcode,
      show x + 1 + BitVec.ofNat 8 m = x + BitVec.ofNat 8 (m + 1) by apply BitVec.eq_of_toNat_eq; simp [BitVec.toNat_add]; omega]
    have hc : t.fetchOpcode.readCalls m t.fetchOpcode.pc = t.fetchByte.readCalls m t.fetchByte.pc := by
      simp only [State.readCalls]; rw [State.bytesAt_congr (s := t.fetchByte) (t := t.fetchOpcode) rfl rfl rfl]; rfl
    rw [hc]; rfl

/-- The state after the fetches of an instruction, of which the first `m1` are opcode fetches. -/
theorem State.fetch_eq (s : State) {len m1 : Nat} (h : m1 ≤ len) : s.beginInstruction.fetch m1 (len - m1) = s.fetched len m1 := by
  have step : ∀ (t : State) (x : Byte) (n : Nat), ({ t with r := x } : State).fetchBytes n = { t.fetchBytes n with r := x } := by
    intro t x n
    rw [State.fetchBytes_eq, State.fetchBytes_eq]
    have : ({ t with r := x } : State).readCalls n t.pc = t.readCalls n t.pc := by
      simp only [State.readCalls]; rw [State.bytesAt_congr (s := t) (t := { t with r := x }) rfl rfl rfl]
    simp only [this]
  rw [State.fetch, State.fetchOpcodes_eq, step, State.fetchBytes_add, Nat.add_sub_cancel' h, State.fetchBytes_eq]
  have : s.beginInstruction.readCalls len s.pc = s.readCalls len s.pc := by
    simp only [State.readCalls]; rw [State.bytesAt_congr (s := s) (t := s.beginInstruction) rfl rfl rfl]
  rw [show s.beginInstruction.pc = s.pc from rfl, this]; rfl

theorem Result.runUnits_append (us vs : List Instr) (s t : State) (h : runUnits us s = .next t) : runUnits (us ++ vs) s = runUnits vs t := by
  induction us generalizing s with
  | nil => cases h; rfl
  | cons u us ih =>
    simp only [runUnits, List.cons_append] at h ⊢
    split at h <;> simp_all

theorem runUnits_singleton (i : Instr) (s : State) : runUnits [i] s = exec i s := by
  simp only [runUnits]; split <;> simp_all

theorem State.intDue_iff (s : State) : s.intDue = true ↔ s.intPending = true ∧ s.iff1 = true ∧ s.eiDelay = false := by
  simp [State.intDue, and_assoc]

theorem step_of_nmi {s : State} (h : s.nmiPending = true) : step s = .next s.acceptNmi := by simp [step, State.executeOne, h]

theorem step_of_int {s : State} (h : s.takesInt) : step s = s.acceptInt := by
  obtain ⟨h1, h2, h3, h4⟩ := h; simp [step, State.executeOne, State.intDue, *]

theorem step_of_halted {s : State} (h : s.acceptsNothing) (hh : s.halted = true) : step s = .next s.haltedCycle := by
  have : s.intDue = false := by rw [← Bool.not_eq_true, State.intDue_iff]; exact h.2
  simp [step, State.executeOne, h.1, this, hh]

theorem step_of_runs {s : State} (h : s.runsInstruction) : step s = s.executeInstruction := by
  have : s.intDue = false := by rw [← Bool.not_eq_true, State.intDue_iff]; exact h.1.2
  simp [step, State.executeOne, h.1.1, this, h.2]

/-- The four kinds of a step, each with what it answers; no two hold of one state. -/
theorem step_cases (s : State) :
    (s.nmiPending = true ∧ step s = .next s.acceptNmi) ∨ (s.takesInt ∧ step s = s.acceptInt) ∨
    (s.acceptsNothing ∧ s.halted = true ∧ step s = .next s.haltedCycle) ∨ (s.runsInstruction ∧ step s = s.executeInstruction) := by
  by_cases hn : s.nmiPending = true
  · exact .inl ⟨hn, step_of_nmi hn⟩
  have hn' : s.nmiPending = false := by simpa using hn
  by_cases hi : s.intPending = true ∧ s.iff1 = true ∧ s.eiDelay = false
  · exact .inr (.inl ⟨⟨hn', hi⟩, step_of_int ⟨hn', hi⟩⟩)
  have ha : s.acceptsNothing := ⟨hn', hi⟩
  by_cases hh : s.halted = true
  · exact .inr (.inr (.inl ⟨ha, hh, step_of_halted ha hh⟩))
  · have hr : s.runsInstruction := ⟨ha, by simpa using hh⟩
    exact .inr (.inr (.inr ⟨hr, step_of_runs hr⟩))

end Sys2Proof.Machine
end

