-- ==== Sys2Proof/Laws/PerInstr.lean ====
section
/-! SUPPORT. The statements about every instruction as syntax, one lemma per constructor of `Instr`. -/

namespace Sys2Proof.Laws.EncodedLength

/-- 30_encoding.md R100: the lengths the instructions of a space have. A prefix row and the redundant-prefix mark are no instructions of their own. -/
def lengths : Space → List Nat
  | .base => [1, 2, 3]
  | .cb => [2]
  | .ed => [2, 4]
  | .xy _ => [2, 3, 4]
  | .xycb _ => [4]
  | .row => []
  | .mark => []

/-- A well-formed instruction is encoded in one of the lengths of its space. -/
def Statement (i : Instr) : Prop := i.wellFormed = true → (lengths i.pattern.1).contains (encode i).length = true

theorem exAfAf : Statement .exAfAf := fun _ => rfl
theorem djnz (e : Byte) : Statement (.djnz e) := fun _ => rfl
theorem jr (e : Byte) : Statement (.jr e) := fun _ => rfl
theorem jrCc (cc : JrCond) (e : Byte) : Statement (.jrCc cc e) := fun _ => rfl
theorem ldDdNn (dd : RegPair) (nn : Word) : Statement (.ldDdNn dd nn) := fun _ => rfl
theorem addHlSs (ss : RegPair) : Statement (.addHlSs ss) := fun _ => rfl
theorem ldMemBcA : Statement .ldMemBcA := fun _ => rfl
theorem ldMemDeA : Statement .ldMemDeA := fun _ => rfl
theorem ldMemNnHl (nn : Word) : Statement (.ldMemNnHl nn) := fun _ => rfl
theorem ldMemNnA (nn : Word) : Statement (.ldMemNnA nn) := fun _ => rfl
theorem ldAMemBc : Statement .ldAMemBc := fun _ => rfl
theorem ldAMemDe : Statement .ldAMemDe := fun _ => rfl
theorem ldHlMemNn (nn : Word) : Statement (.ldHlMemNn nn) := fun _ => rfl
theorem ldAMemNn (nn : Word) : Statement (.ldAMemNn nn) := fun _ => rfl
theorem incSs (ss : RegPair) : Statement (.incSs ss) := fun _ => rfl
theorem decSs (ss : RegPair) : Statement (.decSs ss) := fun _ => rfl
theorem incR (r : Reg8) : Statement (.incR r) := fun _ => rfl
theorem incMemHl : Statement .incMemHl := fun _ => rfl
theorem decR (r : Reg8) : Statement (.decR r) := fun _ => rfl
theorem decMemHl : Statement .decMemHl := fun _ => rfl
theorem ldRN (r : Reg8) (n : Byte) : Statement (.ldRN r n) := fun _ => rfl
theorem ldMemHlN (n : Byte) : Statement (.ldMemHlN n) := fun _ => rfl
theorem rlca : Statement .rlca := fun _ => rfl
theorem rrca : Statement .rrca := fun _ => rfl
theorem rla : Statement .rla := fun _ => rfl
theorem rra : Statement .rra := fun _ => rfl
theorem daa : Statement .daa := fun _ => rfl
theorem cpl : Statement .cpl := fun _ => rfl
theorem scf : Statement .scf := fun _ => rfl
theorem ccf : Statement .ccf := fun _ => rfl
theorem ldRR (r : Reg8) (r' : Reg8) : Statement (.ldRR r r') := fun _ => rfl
theorem ldRMemHl (r : Reg8) : Statement (.ldRMemHl r) := fun _ => rfl
theorem ldMemHlR (r : Reg8) : Statement (.ldMemHlR r) := fun _ => rfl
theorem halt : Statement .halt := fun _ => rfl
theorem addAR (r : Reg8) : Statement (.addAR r) := fun _ => rfl
theorem addAMemHl : Statement .addAMemHl := fun _ => rfl
theorem addAN (n : Byte) : Statement (.addAN n) := fun _ => rfl
theorem adcAR (r : Reg8) : Statement (.adcAR r) := fun _ => rfl
theorem adcAMemHl : Statement .adcAMemHl := fun _ => rfl
theorem adcAN (n : Byte) : Statement (.adcAN n) := fun _ => rfl
theorem subR (r : Reg8) : Statement (.subR r) := fun _ => rfl
theorem subMemHl : Statement .subMemHl := fun _ => rfl
theorem subN (n : Byte) : Statement (.subN n) := fun _ => rfl
theorem sbcAR (r : Reg8) : Statement (.sbcAR r) := fun _ => rfl
theorem sbcAMemHl : Statement .sbcAMemHl := fun _ => rfl
theorem sbcAN (n : Byte) : Statement (.sbcAN n) := fun _ => rfl
theorem andR (r : Reg8) : Statement (.andR r) := fun _ => rfl
theorem andMemHl : Statement .andMemHl := fun _ => rfl
theorem andN (n : Byte) : Statement (.andN n) := fun _ => rfl
theorem xorR (r : Reg8) : Statement (.xorR r) := fun _ => rfl
theorem xorMemHl : Statement .xorMemHl := fun _ => rfl
theorem xorN (n : Byte) : Statement (.xorN n) := fun _ => rfl
theorem orR (r : Reg8) : Statement (.orR r) := fun _ => rfl
theorem orMemHl : Statement .orMemHl := fun _ => rfl
theorem orN (n : Byte) : Statement (.orN n) := fun _ => rfl
theorem cpR (r : Reg8) : Statement (.cpR r) := fun _ => rfl
theorem cpMemHl : Statement .cpMemHl := fun _ => rfl
theorem cpN (n : Byte) : Statement (.cpN n) := fun _ => rfl
theorem retCc (cc : Cond) : Statement (.retCc cc) := fun _ => rfl
theorem popQq (qq : StackPair) : Statement (.popQq qq) := fun _ => rfl
theorem ret : Statement .ret := fun _ => rfl
theorem exx : Statement .exx := fun _ => rfl
theorem jpHl : Statement .jpHl := fun _ => rfl
theorem ldSpHl : Statement .ldSpHl := fun _ => rfl
theorem jpCcNn (cc : Cond) (nn : Word) : Statement (.jpCcNn cc nn) := fun _ => rfl
theorem jpNn (nn : Word) : Statement (.jpNn nn) := fun _ => rfl
theorem outNA (n : Byte) : Statement (.outNA n) := fun _ => rfl
theorem inAN (n : Byte) : Statement (.inAN n) := fun _ => rfl
theorem exMemSpHl : Statement .exMemSpHl := fun _ => rfl
theorem exDeHl : Statement .exDeHl := fun _ => rfl
theorem di : Statement .di := fun _ => rfl
theorem ei : Statement .ei := fun _ => rfl
theorem callCcNn (cc : Cond) (nn : Word) : Statement (.callCcNn cc nn) := fun _ => rfl
theorem pushQq (qq : StackPair) : Statement (.pushQq qq) := fun _ => rfl
theorem callNn (nn : Word) : Statement (.callNn nn) := fun _ => rfl
theorem rst (t : Fin 8) : Statement (.rst t) := fun _ => rfl
theorem prefixCB (before : Option IndexReg) : Statement (.prefixCB before) := fun h => Bool.noConfusion h
theorem prefixDD (before : Option IndexReg) : Statement (.prefixDD before) := fun h => Bool.noConfusion h
theorem prefixED (before : Option IndexReg) : Statement (.prefixED before) := fun h => Bool.noConfusion h
theorem prefixFD (before : Option IndexReg) : Statement (.prefixFD before) := fun h => Bool.noConfusion h
theorem rlcR (r : Reg8) : Statement (.rlcR r) := fun _ => rfl
theorem rlcMemHl : Statement .rlcMemHl := fun _ => rfl
theorem rrcR (r : Reg8) : Statement (.rrcR r) := fun _ => rfl
theorem rrcMemHl : Statement .rrcMemHl := fun _ => rfl
theorem rlR (r : Reg8) : Statement (.rlR r) := fun _ => rfl
theorem rlMemHl : Statement .rlMemHl := fun _ => rfl
theorem rrR (r : Reg8) : Statement (.rrR r) := fun _ => rfl
theorem rrMemHl : Statement .rrMemHl := fun _ => rfl
theorem slaR (r : Reg8) : Statement (.slaR r) := fun _ => rfl
theorem slaMemHl : Statement .slaMemHl := fun _ => rfl
theorem sraR (r : Reg8) : Statement (.sraR r) := fun _ => rfl
theorem sraMemHl : Statement .sraMemHl := fun _ => rfl
theorem sllR (r : Reg8) : Statement (.sllR r) := fun _ => rfl
theorem sllMemHl : Statement .sllMemHl := fun _ => rfl
theorem srlR (r : Reg8) : Statement (.srlR r) := fun _ => rfl
theorem srlMemHl : Statement .srlMemHl := fun _ => rfl
theorem bitBR (b : Fin 8) (r : Reg8) : Statement (.bitBR b r) := fun _ => rfl
theorem bitBMemHl (b : Fin 8) : Statement (.bitBMemHl b) := fun _ => rfl
theorem resBR (b : Fin 8) (r : Reg8) : Statement (.resBR b r) := fun _ => rfl
theorem resBMemHl (b : Fin 8) : Statement (.resBMemHl b) := fun _ => rfl
theorem setBR (b : Fin 8) (r : Reg8) : Statement (.setBR b r) := fun _ => rfl
theorem setBMemHl (b : Fin 8) : Statement (.setBMemHl b) := fun _ => rfl
theorem inRC (r : Reg8) : Statement (.inRC r) := fun _ => rfl
theorem inC : Statement .inC := fun _ => rfl
theorem outCR (r : Reg8) : Statement (.outCR r) := fun _ => rfl
theorem outC0 : Statement .outC0 := fun _ => rfl
theorem sbcHlSs (ss : RegPair) : Statement (.sbcHlSs ss) := fun _ => rfl
theorem adcHlSs (ss : RegPair) : Statement (.adcHlSs ss) := fun _ => rfl
theorem ldMemNnDd (dd : RegPair) (nn : Word) : Statement (.ldMemNnDd dd nn) := fun _ => rfl
theorem ldDdMemNn (dd : RegPair) (nn : Word) : Statement (.ldDdMemNn dd nn) := fun _ => rfl
theorem neg (y : Fin 8) : Statement (.neg y) := fun _ => rfl
theorem retn (y : Fin 8) : Statement (.retn y) := fun _ => rfl
theorem reti : Statement .reti := fun _ => rfl
theorem im0 (x5 : Bool) (x3 : Bool) : Statement (.im0 x5 x3) := fun _ => rfl
theorem im1 (x5 : Bool) : Statement (.im1 x5) := fun _ => rfl
theorem im2 (x5 : Bool) : Statement (.im2 x5) := fun _ => rfl
theorem ldIA : Statement .ldIA := fun _ => rfl
theorem ldRA : Statement .ldRA := fun _ => rfl
theorem ldAI : Statement .ldAI := fun _ => rfl
theorem ldAR : Statement .ldAR := fun _ => rfl
theorem rrd : Statement .rrd := fun _ => rfl
theorem rld : Statement .rld := fun _ => rfl
theorem ldi : Statement .ldi := fun _ => rfl
theorem cpi : Statement .cpi := fun _ => rfl
theorem ini : Statement .ini := fun _ => rfl
theorem outi : Statement .outi := fun _ => rfl
theorem ldd : Statement .ldd := fun _ => rfl
theorem cpd : Statement .cpd := fun _ => rfl
theorem ind : Statement .ind := fun _ => rfl
theorem outd : Statement .outd := fun _ => rfl
theorem ldir : Statement .ldir := fun _ => rfl
theorem cpir : Statement .cpir := fun _ => rfl
theorem inir : Statement .inir := fun _ => rfl
theorem otir : Statement .otir := fun _ => rfl
theorem lddr : Statement .lddr := fun _ => rfl
theorem cpdr : Statement .cpdr := fun _ => rfl
theorem indr : Statement .indr := fun _ => rfl
theorem otdr : Statement .otdr := fun _ => rfl
theorem nopEd (op : Byte) : Statement (.nopEd op) := fun _ => rfl
theorem addIxPp (pp : IndexPair) : Statement (.addIxPp pp) := fun _ => rfl
theorem addIyPp (pp : IndexPair) : Statement (.addIyPp pp) := fun _ => rfl
theorem ldIxNn (nn : Word) : Statement (.ldIxNn nn) := fun _ => rfl
theorem ldIyNn (nn : Word) : Statement (.ldIyNn nn) := fun _ => rfl
theorem ldMemNnIx (nn : Word) : Statement (.ldMemNnIx nn) := fun _ => rfl
theorem ldMemNnIy (nn : Word) : Statement (.ldMemNnIy nn) := fun _ => rfl
theorem incIx : Statement .incIx := fun _ => rfl
theorem incIy : Statement .incIy := fun _ => rfl
theorem incP (xy : IndexReg) (p : Half) : Statement (.incP xy p) := by cases xy <;> exact fun _ => rfl
theorem decP (xy : IndexReg) (p : Half) : Statement (.decP xy p) := by cases xy <;> exact fun _ => rfl
theorem ldPN (xy : IndexReg) (p : Half) (n : Byte) : Statement (.ldPN xy p n) := by cases xy <;> exact fun _ => rfl
theorem ldIxMemNn (nn : Word) : Statement (.ldIxMemNn nn) := fun _ => rfl
theorem ldIyMemNn (nn : Word) : Statement (.ldIyMemNn nn) := fun _ => rfl
theorem decIx : Statement .decIx := fun _ => rfl
theorem decIy : Statement .decIy := fun _ => rfl
theorem incMemIx (d : Byte) : Statement (.incMemIx d) := fun _ => rfl
theorem incMemIy (d : Byte) : Statement (.incMemIy d) := fun _ => rfl
theorem decMemIx (d : Byte) : Statement (.decMemIx d) := fun _ => rfl
theorem decMemIy (d : Byte) : Statement (.decMemIy d) := fun _ => rfl
theorem ldMemIxN (d : Byte) (n : Byte) : Statement (.ldMemIxN d n) := fun _ => rfl
theorem ldMemIyN (d : Byte) (n : Byte) : Statement (.ldMemIyN d n) := fun _ => rfl
theorem ldQQ (xy : IndexReg) (q : HalfReg) (q' : HalfReg) : Statement (.ldQQ xy q q') := by cases xy <;> exact fun _ => rfl
theorem ldRMemIx (r : Reg8) (d : Byte) : Statement (.ldRMemIx r d) := fun _ => rfl
theorem ldRMemIy (r : Reg8) (d : Byte) : Statement (.ldRMemIy r d) := fun _ => rfl
theorem ldMemIxR (d : Byte) (r : Reg8) : Statement (.ldMemIxR d r) := fun _ => rfl
theorem ldMemIyR (d : Byte) (r : Reg8) : Statement (.ldMemIyR d r) := fun _ => rfl
theorem addAP (xy : IndexReg) (p : Half) : Statement (.addAP xy p) := by cases xy <;> exact fun _ => rfl
theorem addAMemIx (d : Byte) : Statement (.addAMemIx d) := fun _ => rfl
theorem addAMemIy (d : Byte) : Statement (.addAMemIy d) := fun _ => rfl
theorem adcAP (xy : IndexReg) (p : Half) : Statement (.adcAP xy p) := by cases xy <;> exact fun _ => rfl
theorem adcAMemIx (d : Byte) : Statement (.adcAMemIx d) := fun _ => rfl
theorem adcAMemIy (d : Byte) : Statement (.adcAMemIy d) := fun _ => rfl
theorem subP (xy : IndexReg) (p : Half) : Statement (.subP xy p) := by cases xy <;> exact fun _ => rfl
theorem subMemIx (d : Byte) : Statement (.subMemIx d) := fun _ => rfl
theorem subMemIy (d : Byte) : Statement (.subMemIy d) := fun _ => rfl
theorem sbcAP (xy : IndexReg) (p : Half) : Statement (.sbcAP xy p) := by cases xy <;> exact fun _ => rfl
theorem sbcAMemIx (d : Byte) : Statement (.sbcAMemIx d) := fun _ => rfl
theorem sbcAMemIy (d : Byte) : Statement (.sbcAMemIy d) := fun _ => rfl
theorem andP (xy : IndexReg) (p : Half) : Statement (.andP xy p) := by cases xy <;> exact fun _ => rfl
theorem andMemIx (d : Byte) : Statement (.andMemIx d) := fun _ => rfl
theorem andMemIy (d : Byte) : Statement (.andMemIy d) := fun _ => rfl
theorem xorP (xy : IndexReg) (p : Half) : Statement (.xorP xy p) := by cases xy <;> exact fun _ => rfl
theorem xorMemIx (d : Byte) : Statement (.xorMemIx d) := fun _ => rfl
theorem xorMemIy (d : Byte) : Statement (.xorMemIy d) := fun _ => rfl
theorem orP (xy : IndexReg) (p : Half) : Statement (.orP xy p) := by cases xy <;> exact fun _ => rfl
theorem orMemIx (d : Byte) : Statement (.orMemIx d) := fun _ => rfl
theorem orMemIy (d : Byte) : Statement (.orMemIy d) := fun _ => rfl
theorem cpP (xy : IndexReg) (p : Half) : Statement (.cpP xy p) := by cases xy <;> exact fun _ => rfl
theorem cpMemIx (d : Byte) : Statement (.cpMemIx d) := fun _ => rfl
theorem cpMemIy (d : Byte) : Statement (.cpMemIy d) := fun _ => rfl
theorem popIx : Statement .popIx := fun _ => rfl
theorem popIy : Statement .popIy := fun _ => rfl
theorem exMemSpIx : Statement .exMemSpIx := fun _ => rfl
theorem exMemSpIy : Statement .exMemSpIy := fun _ => rfl
theorem pushIx : Statement .pushIx := fun _ => rfl
theorem pushIy : Statement .pushIy := fun _ => rfl
theorem jpIx : Statement .jpIx := fun _ => rfl
theorem jpIy : Statement .jpIy := fun _ => rfl
theorem ldSpIx : Statement .ldSpIx := fun _ => rfl
theorem ldSpIy : Statement .ldSpIy := fun _ => rfl
theorem baseRedundant (xy : IndexReg) : Statement (.baseRedundant xy) := fun h => Bool.noConfusion h
theorem rlcMemIx (d : Byte) : Statement (.rlcMemIx d) := fun _ => rfl
theorem rlcMemIy (d : Byte) : Statement (.rlcMemIy d) := fun _ => rfl
theorem rlcMemIxR (d : Byte) (r : Reg8) : Statement (.rlcMemIxR d r) := fun _ => rfl
theorem rlcMemIyR (d : Byte) (r : Reg8) : Statement (.rlcMemIyR d r) := fun _ => rfl
theorem rrcMemIx (d : Byte) : Statement (.rrcMemIx d) := fun _ => rfl
theorem rrcMemIy (d : Byte) : Statement (.rrcMemIy d) := fun _ => rfl
theorem rrcMemIxR (d : Byte) (r : Reg8) : Statement (.rrcMemIxR d r) := fun _ => rfl
theorem rrcMemIyR (d : Byte) (r : Reg8) : Statement (.rrcMemIyR d r) := fun _ => rfl
theorem rlMemIx (d : Byte) : Statement (.rlMemIx d) := fun _ => rfl
theorem rlMemIy (d : Byte) : Statement (.rlMemIy d) := fun _ => rfl
theorem rlMemIxR (d : Byte) (r : Reg8) : Statement (.rlMemIxR d r) := fun _ => rfl
theorem rlMemIyR (d : Byte) (r : Reg8) : Statement (.rlMemIyR d r) := fun _ => rfl
theorem rrMemIx (d : Byte) : Statement (.rrMemIx d) := fun _ => rfl
theorem rrMemIy (d : Byte) : Statement (.rrMemIy d) := fun _ => rfl
theorem rrMemIxR (d : Byte) (r : Reg8) : Statement (.rrMemIxR d r) := fun _ => rfl
theorem rrMemIyR (d : Byte) (r : Reg8) : Statement (.rrMemIyR d r) := fun _ => rfl
theorem slaMemIx (d : Byte) : Statement (.slaMemIx d) := fun _ => rfl
theorem slaMemIy (d : Byte) : Statement (.slaMemIy d) := fun _ => rfl
theorem slaMemIxR (d : Byte) (r : Reg8) : Statement (.slaMemIxR d r) := fun _ => rfl
theorem slaMemIyR (d : Byte) (r : Reg8) : Statement (.slaMemIyR d r) := fun _ => rfl
theorem sraMemIx (d : Byte) : Statement (.sraMemIx d) := fun _ => rfl
theorem sraMemIy (d : Byte) : Statement (.sraMemIy d) := fun _ => rfl
theorem sraMemIxR (d : Byte) (r : Reg8) : Statement (.sraMemIxR d r) := fun _ => rfl
theorem sraMemIyR (d : Byte) (r : Reg8) : Statement (.sraMemIyR d r) := fun _ => rfl
theorem sllMemIx (d : Byte) : Statement (.sllMemIx d) := fun _ => rfl
theorem sllMemIy (d : Byte) : Statement (.sllMemIy d) := fun _ => rfl
theorem sllMemIxR (d : Byte) (r : Reg8) : Statement (.sllMemIxR d r) := fun _ => rfl
theorem sllMemIyR (d : Byte) (r : Reg8) : Statement (.sllMemIyR d r) := fun _ => rfl
theorem srlMemIx (d : Byte) : Statement (.srlMemIx d) := fun _ => rfl
theorem srlMemIy (d : Byte) : Statement (.srlMemIy d) := fun _ => rfl
theorem srlMemIxR (d : Byte) (r : Reg8) : Statement (.srlMemIxR d r) := fun _ => rfl
theorem srlMemIyR (d : Byte) (r : Reg8) : Statement (.srlMemIyR d r) := fun _ => rfl
theorem bitBMemIx (b : Fin 8) (d : Byte) : Statement (.bitBMemIx b d) := fun _ => rfl
theorem bitBMemIy (b : Fin 8) (d : Byte) : Statement (.bitBMemIy b d) := fun _ => rfl
theorem bitBMemIxZ (b : Fin 8) (d : Byte) (z : Reg8) : Statement (.bitBMemIxZ b d z) := fun _ => rfl
theorem bitBMemIyZ (b : Fin 8) (d : Byte) (z : Reg8) : Statement (.bitBMemIyZ b d z) := fun _ => rfl
theorem resBMemIx (b : Fin 8) (d : Byte) : Statement (.resBMemIx b d) := fun _ => rfl
theorem resBMemIy (b : Fin 8) (d : Byte) : Statement (.resBMemIy b d) := fun _ => rfl
theorem resBMemIxR (b : Fin 8) (d : Byte) (r : Reg8) : Statement (.resBMemIxR b d r) := fun _ => rfl
theorem resBMemIyR (b : Fin 8) (d : Byte) (r : Reg8) : Statement (.resBMemIyR b d r) := fun _ => rfl
theorem setBMemIx (b : Fin 8) (d : Byte) : Statement (.setBMemIx b d) := fun _ => rfl
theorem setBMemIy (b : Fin 8) (d : Byte) : Statement (.setBMemIy b d) := fun _ => rfl
theorem setBMemIxR (b : Fin 8) (d : Byte) (r : Reg8) : Statement (.setBMemIxR b d r) := fun _ => rfl
theorem setBMemIyR (b : Fin 8) (d : Byte) (r : Reg8) : Statement (.setBMemIyR b d r) := fun _ => rfl
theorem nop : Statement .nop := fun _ => rfl

end Sys2Proof.Laws.EncodedLength
end

