-- ==== Sys2Proof/Tests/Slice0.lean ====
section
/-! SUPPORT. Tests of the model against the spec's own numbers, and for every obligation with hypotheses a witness that meets them. -/

namespace Sys2Proof.Tests

open Machine

/-! ## Well-formedness: an ill-formed term for each check, and well-formed neighbours -/

theorem test_wf_retn : Instr.wellFormed (.retn 1) = false ∧ Instr.wellFormed (.retn 0) = true ∧ Instr.wellFormed (.retn 7) = true := by decide

theorem test_wf_nopEd : Instr.wellFormed (.nopEd 0x44) = false ∧ Instr.wellFormed (.nopEd 0xB0) = false ∧ Instr.wellFormed (.nopEd 0xA0) = false ∧
    Instr.wellFormed (.nopEd 0x3F) = true ∧ Instr.wellFormed (.nopEd 0x77) = true ∧ Instr.wellFormed (.nopEd 0xFF) = true := by decide

theorem test_wf_ldQQ : Instr.wellFormed (.ldQQ .ix .b .a) = false ∧ Instr.wellFormed (.ldQQ .ix .b .xyl) = true ∧
    Instr.wellFormed (.ldQQ .iy .xyh .a) = true := by decide

theorem test_wf_prefixCB : Instr.wellFormed (.prefixCB none) = false ∧ Instr.wellFormed (.prefixCB (some .ix)) = false := by decide

theorem test_wf_prefixDD : Instr.wellFormed (.prefixDD none) = false := by decide

theorem test_wf_prefixED : Instr.wellFormed (.prefixED none) = false := by decide

theorem test_wf_prefixFD : Instr.wellFormed (.prefixFD none) = false := by decide

theorem test_wf_baseRedundant : Instr.wellFormed (.baseRedundant .iy) = false := by decide

/-! ## Decoding: words written out from the Encoding clauses, a family a line -/

/-- The instruction at the front of the bytes, and how many it takes. -/
def decoded (bytes : List Byte) : Option (Instr × Nat) :=
  match decode bytes with
  | .ok d => some (d.instr, d.len)
  | .error _ => none

/-- 40_load8.md R150 `01 r r'`, R153 `DD 01 r 110`, R168 `FD 01 q q'`. -/
theorem test_decode_load8 : decoded [0b01_111_000] = some (.ldRR .a .b, 1) ∧ decoded [0xDD, 0b01_110_100, 0xFF] = some (.ldMemIxR 0xFF .h, 3) ∧
    decoded [0xFD, 0b01_100_101] = some (.ldQQ .iy .xyh .xyl, 2) := by decide

/-- 41_load16_stack.md R180 `00 dd 0001`, R183 `ED 01 dd 1011`, R190 `11 qq 0101`. -/
theorem test_decode_load16 : decoded [0b00_11_0001, 0x34, 0x12] = some (.ldDdNn .sp 0x1234, 3) ∧
    decoded [0xED, 0b01_01_1011, 0x78, 0x56] = some (.ldDdMemNn .de 0x5678, 4) ∧ decoded [0b11_11_0101] = some (.pushQq .af, 1) := by decide

/-- 42_exchange_block.md R200, R205 to R212 `ED 10 1yy 0zz`. -/
theorem test_decode_exchange_block : decoded [0b11_101_011] = some (.exDeHl, 1) ∧ decoded [0xED, 0b10_110_000] = some (.ldir, 2) ∧
    decoded [0xED, 0b10_101_001] = some (.cpd, 2) ∧ decoded [0xED, 0b10_111_001] = some (.cpdr, 2) := by decide

/-- 43_alu8.md R230 `10 alu r`, `11 alu 110 n`, R270 `00 r 100`. -/
theorem test_decode_alu8 : decoded [0b10_011_010] = some (.sbcAR .d, 1) ∧ decoded [0b11_111_110, 0x28] = some (.cpN 0x28, 2) ∧
    decoded [0xDD, 0b10_000_101] = some (.addAP .ix .low, 2) ∧ decoded [0b00_101_100] = some (.incR .l, 1) := by decide

/-- 44_general_control.md R290, R293 with a duplicate, R300 to R303. -/
theorem test_decode_control : decoded [0b00_100_111] = some (.daa, 1) ∧ decoded [0xED, 0b01_111_100] = some (.neg 7, 2) ∧
    decoded [0xED, 0b01_101_110] = some (.im0 true true, 2) ∧ decoded [0xED, 0b01_011_110] = some (.im2 false, 2) ∧
    decoded [0xED, 0b01_110_111] = some (.nopEd 0x77, 2) := by decide

/-- 45_alu16.md R310 `00 ss 1001`, R311, R313 `ED 01 ss 0010`. -/
theorem test_decode_alu16 : decoded [0b00_10_1001] = some (.addHlSs .hl, 1) ∧ decoded [0xFD, 0b00_10_1001] = some (.addIyPp .xy, 2) ∧
    decoded [0xED, 0b01_11_0010] = some (.sbcHlSs .sp, 2) := by decide

/-- 46_rotate_shift.md R330 `CB 00 rot r`, with the copy to a register. -/
theorem test_decode_rotate : decoded [0xCB, 0b00_110_111] = some (.sllR .a, 2) ∧ decoded [0xDD, 0xCB, 0x01, 0b00_000_000] = some (.rlcMemIxR 0x01 .b, 4) ∧
    decoded [0xED, 0b01_101_111] = some (.rld, 2) := by decide

/-- 47_bit.md R381 `CB 01 b r`, R386, R389. -/
theorem test_decode_bit : decoded [0xCB, 0b01_011_011] = some (.bitBR 3 .e, 2) ∧ decoded [0xFD, 0xCB, 0xFE, 0b11_111_111] = some (.setBMemIyR 7 0xFE .a, 4) ∧
    decoded [0xCB, 0b10_011_110] = some (.resBMemHl 3, 2) ∧ decoded [0xDD, 0xCB, 0x05, 0b01_111_000] = some (.bitBMemIxZ 7 0x05 .b, 4) := by decide

/-- 48_jump_call_return.md R400 to R413. -/
theorem test_decode_jump : decoded [0b11_100_010, 0x00, 0x90] = some (.jpCcNn .po 0x9000, 3) ∧ decoded [0b00_110_000, 0xFE] = some (.jrCc .nc 0xFE, 2) ∧
    decoded [0b11_111_111] = some (.rst 7, 1) ∧ decoded [0xED, 0b01_001_101] = some (.reti, 2) ∧ decoded [0xED, 0b01_111_101] = some (.retn 7, 2) := by decide

/-- 49_io.md R430 to R443. -/
theorem test_decode_io : decoded [0b11_011_011, 0xFE] = some (.inAN 0xFE, 2) ∧ decoded [0xED, 0b01_110_000] = some (.inC, 2) ∧
    decoded [0xED, 0b01_111_001] = some (.outCR .a, 2) ∧ decoded [0xED, 0b10_111_011] = some (.otdr, 2) := by decide

/-- 30_encoding.md R111: DD FD DD 00 is a NOP with three prefixes, of which none governs. -/
theorem test_decode_prefixes : decode [0xDD, 0xFD, 0xDD, 0x00] =
    .ok ⟨[.prefixDD none, .prefixFD (some .ix), .prefixDD (some .iy), .baseRedundant .ix], .nop, 4, 4⟩ := by decide

/-- Rows of spec/opcode_table.json by their number and width. -/
theorem test_table_words : decodeTableWord 8 0x3E = some (.ldRN .a 0) ∧ decodeTableWord 8 0x76 = some .halt ∧ decodeTableWord 8 0xB0 = some (.orR .b) := by decide

/-! ## One step, from 95_test_vectors.md tables V40 to V49 and S2: registers, T-states and bus traffic -/

/-- The instruction bytes at 8000, PC there. -/
def at8000 (s : State) (bytes : List Byte) : State := ({ s with pc := 0x8000 } : State).place 0x8000 bytes

/-- A step answers a next state, and it passes the check. -/
def reaches (s : State) (check : State → Bool) : Bool :=
  match step s with
  | .next t => check t
  | _ => false

theorem test_ld_a_ixm1 : reaches (at8000 { State.reset with mem := [(0xFFFF, 0x77)] } [0xDD, 0x7E, 0xFF])
    (fun t => t.af == 0x7700 && t.pc == 0x8003 && t.wz == 0xFFFF && t.r == 0x02 && t.tacts == 19 && t.bus.take 1 == [.readByte 0xFFFF 0x77]) := by decide

theorem test_ld_b_iyp127 : reaches (at8000 { State.reset with iy := 0xFF90, mem := [(0x000F, 0x42)] } [0xFD, 0x46, 0x7F])
    (fun t => t.bc == 0x4200 && t.pc == 0x8003 && t.wz == 0x000F && t.r == 0x02 && t.tacts == 19 && t.bus.take 1 == [.readByte 0x000F 0x42]) := by decide

theorem test_ld_ixp2_h : reaches (at8000 { State.reset with ix := 0x4000, h := 0x12, l := 0x34 } [0xDD, 0x74, 0x02])
    (fun t => t.pc == 0x8003 && t.wz == 0x4002 && t.r == 0x02 && t.tacts == 19 && t.bus.take 1 == [.writeByte 0x4002 0x12]) := by decide

theorem test_ld_iym128_aa : reaches (at8000 { State.reset with iy := 0x4080 } [0xFD, 0x36, 0x80, 0xAA])
    (fun t => t.pc == 0x8004 && t.wz == 0x4000 && t.r == 0x02 && t.tacts == 19 && t.bus.take 1 == [.writeByte 0x4000 0xAA]) := by decide

theorem test_ld_a_bc : reaches (at8000 { State.reset with b := 0x40, mem := [(0x4000, 0x11)] } [0x0A])
    (fun t => t.af == 0x1100 && t.pc == 0x8001 && t.wz == 0x4001 && t.r == 0x01 && t.tacts == 7 && t.bus.take 1 == [.readByte 0x4000 0x11]) := by decide

theorem test_ld_ffff_a : reaches (at8000 { State.reset with a := 0x77 } [0x32, 0xFF, 0xFF])
    (fun t => t.pc == 0x8003 && t.wz == 0x7700 && t.r == 0x01 && t.tacts == 13 && t.bus.take 1 == [.writeByte 0xFFFF 0x77]) := by decide

theorem test_ld_de_a : reaches (at8000 { State.reset with d := 0x40, e := 0xFF, a := 0x12 } [0x12])
    (fun t => t.pc == 0x8001 && t.wz == 0x1200 && t.r == 0x01 && t.tacts == 7 && t.bus.take 1 == [.writeByte 0x40FF 0x12]) := by decide

theorem test_ld_a_i : reaches (at8000 { State.reset with i := 0x80, iff2 := true, f := 0x01 } [0xED, 0x57])
    (fun t => t.af == 0x8085 && t.pc == 0x8002 && t.r == 0x02 && t.tacts == 9) := by decide

theorem test_ld_a_r : reaches (at8000 { State.reset with r := 0xFE, iff2 := true } [0xED, 0x5F])
    (fun t => t.af == 0x8084 && t.pc == 0x8002 && t.r == 0x80 && t.tacts == 9) := by decide

theorem test_ld_r_a : reaches (at8000 { State.reset with a := 0xFF } [0xED, 0x4F])
    (fun t => t.pc == 0x8002 && t.r == 0xFF && t.tacts == 9) := by decide

theorem test_ld_i_a : reaches (at8000 { State.reset with a := 0x3B, f := 0xFF } [0xED, 0x47])
    (fun t => t.pc == 0x8002 && t.i == 0x3B && t.r == 0x02 && t.tacts == 9) := by decide

theorem test_ld_ixh_ixl : reaches (at8000 { State.reset with ix := 0x12AB, h := 0x55, l := 0x55 } [0xDD, 0x65])
    (fun t => t.ix == 0xABAB && t.pc == 0x8002 && t.r == 0x02 && t.tacts == 8) := by decide

theorem test_ld_iyl_07 : reaches (at8000 { State.reset with iy := 0xFFFF } [0xFD, 0x2E, 0x07])
    (fun t => t.iy == 0xFF07 && t.pc == 0x8003 && t.r == 0x02 && t.tacts == 11) := by decide

theorem test_ld_sp_0000 : reaches (at8000 { State.reset with sp := 0x1234 } [0x31, 0x00, 0x00])
    (fun t => t.sp == 0x0000 && t.pc == 0x8003 && t.r == 0x01 && t.tacts == 10) := by decide

theorem test_ld_hl_ffff : reaches (at8000 { State.reset with mem := [(0x0000, 0x12), (0xFFFF, 0x34)] } [0x2A, 0xFF, 0xFF])
    (fun t => t.hl == 0x1234 && t.pc == 0x8003 && t.r == 0x01 && t.tacts == 16 && t.bus.take 2 == [.readByte 0x0000 0x12, .readByte 0xFFFF 0x34]) := by decide

theorem test_ld_bc_4000 : reaches (at8000 { State.reset with mem := [(0x4000, 0x78), (0x4001, 0x56)] } [0xED, 0x4B, 0x00, 0x40])
    (fun t => t.bc == 0x5678 && t.pc == 0x8004 && t.wz == 0x4001 && t.r == 0x02 && t.tacts == 20 && t.bus.take 2 == [.readByte 0x4001 0x56, .readByte 0x4000 0x78]) := by decide

theorem test_ld_ffff_sp : reaches (at8000 { State.reset with sp := 0x1234 } [0xED, 0x73, 0xFF, 0xFF])
    (fun t => t.pc == 0x8004 && t.r == 0x02 && t.tacts == 20 && t.bus.take 2 == [.writeByte 0x0000 0x12, .writeByte 0xFFFF 0x34]) := by decide

theorem test_push_bc : reaches (at8000 { State.reset with b := 0x12, c := 0x34, sp := 0x0001 } [0xC5])
    (fun t => t.sp == 0xFFFF && t.pc == 0x8001 && t.r == 0x01 && t.tacts == 11 && t.bus.take 2 == [.writeByte 0xFFFF 0x34, .writeByte 0x0000 0x12]) := by decide

theorem test_pop_af : reaches (at8000 { State.reset with sp := 0x4000, mem := [(0x4000, 0xD7), (0x4001, 0x99)] } [0xF1])
    (fun t => t.af == 0x99D7 && t.sp == 0x4002 && t.pc == 0x8001 && t.r == 0x01 && t.tacts == 10 && t.bus.take 2 == [.readByte 0x4001 0x99, .readByte 0x4000 0xD7]) := by decide

theorem test_pop_iy : reaches (at8000 { State.reset with sp := 0x4000, mem := [(0x4000, 0x01), (0x4001, 0x02)] } [0xFD, 0xE1])
    (fun t => t.iy == 0x0201 && t.sp == 0x4002 && t.pc == 0x8002 && t.r == 0x02 && t.tacts == 14 && t.bus.take 2 == [.readByte 0x4001 0x02, .readByte 0x4000 0x01]) := by decide

theorem test_ex_af_af2 : reaches (at8000 { State.reset with a := 0x12, f := 0x34, a' := 0x56, f' := 0x78 } [0x08])
    (fun t => t.af == 0x5678 && word t.a' t.f' == 0x1234 && t.pc == 0x8001 && t.r == 0x01 && t.tacts == 4) := by decide

theorem test_exx : reaches (at8000 { State.reset with b := 0x01, c := 0x01, d := 0x02, e := 0x02, h := 0x03, l := 0x03, b' := 0x11, c' := 0x11, d' := 0x22, e' := 0x22, h' := 0x33, l' := 0x33, a := 0x99, f := 0x99 } [0xD9])
    (fun t => t.bc == 0x1111 && t.de == 0x2222 && t.hl == 0x3333 && word t.b' t.c' == 0x0101 && word t.d' t.e' == 0x0202 && word t.h' t.l' == 0x0303 && t.pc == 0x8001 && t.r == 0x01 && t.tacts == 4) := by decide

theorem test_ex_sp_ix : reaches (at8000 { State.reset with sp := 0xFFFF, ix := 0xAABB, mem := [(0x0000, 0x02), (0xFFFF, 0x01)] } [0xDD, 0xE3])
    (fun t => t.ix == 0x0201 && t.pc == 0x8002 && t.wz == 0x0201 && t.r == 0x02 && t.tacts == 23 && t.bus.take 4 == [.writeByte 0xFFFF 0xBB, .writeByte 0x0000 0xAA, .readByte 0x0000 0x02, .readByte 0xFFFF 0x01]) := by decide

theorem test_ldi : reaches (at8000 { State.reset with h := 0x40, d := 0x50, c := 0x01, a := 0x03, f := 0xFF, mem := [(0x4000, 0x25)] } [0xED, 0xA0])
    (fun t => t.af == 0x03C9 && t.bc == 0x0000 && t.de == 0x5001 && t.hl == 0x4001 && t.pc == 0x8002 && t.r == 0x02 && t.tacts == 16 && t.bus.take 2 == [.writeByte 0x5000 0x25, .readByte 0x4000 0x25]) := by decide

theorem test_lddr_1_step_of_3 : reaches (at8000 { State.reset with h := 0x40, l := 0x02, d := 0x50, e := 0x02, c := 0x03, mem := [(0x4002, 0x01)] } [0xED, 0xB8])
    (fun t => t.af == 0x0004 && t.bc == 0x0002 && t.de == 0x5001 && t.hl == 0x4001 && t.wz == 0x8001 && t.r == 0x02 && t.tacts == 21 && t.bus.take 2 == [.writeByte 0x5002 0x01, .readByte 0x4002 0x01]) := by decide

theorem test_cpi : reaches (at8000 { State.reset with a := 0x10, h := 0x40, c := 0x01, mem := [(0x4000, 0x01)] } [0xED, 0xA1])
    (fun t => t.af == 0x103A && t.bc == 0x0000 && t.hl == 0x4001 && t.pc == 0x8002 && t.wz == 0x0001 && t.r == 0x02 && t.tacts == 16 && t.bus.take 1 == [.readByte 0x4000 0x01]) := by decide

theorem test_cpd : reaches (at8000 { State.reset with mem := [(0x0000, 0x01)] } [0xED, 0xA9])
    (fun t => t.af == 0x00BE && t.bc == 0xFFFF && t.hl == 0xFFFF && t.pc == 0x8002 && t.wz == 0xFFFF && t.r == 0x02 && t.tacts == 16 && t.bus.take 1 == [.readByte 0x0000 0x01]) := by decide

theorem test_add_a_b : reaches (at8000 { State.reset with a := 0x7F, b := 0x01 } [0x80])
    (fun t => t.af == 0x8094 && t.pc == 0x8001 && t.r == 0x01 && t.tacts == 4) := by decide

theorem test_adc_a_hl : reaches (at8000 { State.reset with h := 0x40, f := 0x01, mem := [(0x4000, 0xFF)] } [0x8E])
    (fun t => t.af == 0x0051 && t.pc == 0x8001 && t.r == 0x01 && t.tacts == 7 && t.bus.take 1 == [.readByte 0x4000 0xFF]) := by decide

theorem test_sub_b : reaches (at8000 { State.reset with a := 0x80, b := 0x01 } [0x90])
    (fun t => t.af == 0x7F3E && t.pc == 0x8001 && t.r == 0x01 && t.tacts == 4) := by decide

theorem test_sbc_a_b : reaches (at8000 { State.reset with b := 0xFF, f := 0x01 } [0x98])
    (fun t => t.af == 0x0053 && t.pc == 0x8001 && t.r == 0x01 && t.tacts == 4) := by decide

theorem test_and_b : reaches (at8000 { State.reset with a := 0xF0, b := 0x0F, f := 0x01 } [0xA0])
    (fun t => t.af == 0x0054 && t.pc == 0x8001 && t.r == 0x01 && t.tacts == 4) := by decide

theorem test_or_hl : reaches (at8000 { State.reset with h := 0x40, f := 0xFF } [0xB6])
    (fun t => t.af == 0x0044 && t.pc == 0x8001 && t.r == 0x01 && t.tacts == 7 && t.bus.take 1 == [.readByte 0x4000 0x00]) := by decide

theorem test_cp_b : reaches (at8000 { State.reset with a := 0x10, b := 0x28 } [0xB8])
    (fun t => t.af == 0x10BB && t.pc == 0x8001 && t.r == 0x01 && t.tacts == 4) := by decide

theorem test_sub_iyh : reaches (at8000 { State.reset with a := 0x50, iy := 0x6000 } [0xFD, 0x94])
    (fun t => t.af == 0xF0A3 && t.pc == 0x8002 && t.r == 0x02 && t.tacts == 8) := by decide

theorem test_inc_a : reaches (at8000 { State.reset with a := 0x7F, f := 0x01 } [0x3C])
    (fun t => t.af == 0x8095 && t.pc == 0x8001 && t.r == 0x01 && t.tacts == 4) := by decide

theorem test_inc_hl : reaches (at8000 { State.reset with h := 0x40, f := 0x01, mem := [(0x4000, 0x0F)] } [0x34])
    (fun t => t.af == 0x0011 && t.pc == 0x8001 && t.r == 0x01 && t.tacts == 11 && t.bus.take 2 == [.writeByte 0x4000 0x10, .readByte 0x4000 0x0F]) := by decide

theorem test_dec_b : reaches (at8000 { State.reset with f := 0x01 } [0x05])
    (fun t => t.af == 0x00BB && t.bc == 0xFF00 && t.pc == 0x8001 && t.r == 0x01 && t.tacts == 4) := by decide

theorem test_daa : reaches (at8000 { State.reset with a := 0x0F } [0x27])
    (fun t => t.af == 0x1510 && t.pc == 0x8001 && t.r == 0x01 && t.tacts == 4) := by decide

theorem test_daa_2 : reaches (at8000 { State.reset with a := 0xFA, f := 0x13 } [0x27])
    (fun t => t.af == 0x9483 && t.pc == 0x8001 && t.r == 0x01 && t.tacts == 4) := by decide

theorem test_cpl : reaches (at8000 { State.reset with a := 0x5A, f := 0xC5 } [0x2F])
    (fun t => t.af == 0xA5F7 && t.pc == 0x8001 && t.r == 0x01 && t.tacts == 4) := by decide

theorem test_neg : reaches (at8000 { State.reset with a := 0x80 } [0xED, 0x44])
    (fun t => t.af == 0x8087 && t.pc == 0x8002 && t.r == 0x02 && t.tacts == 8) := by decide

theorem test_neg_duplicate : reaches (at8000 { State.reset with a := 0xFF } [0xED, 0x7C])
    (fun t => t.af == 0x0113 && t.pc == 0x8002 && t.r == 0x02 && t.tacts == 8) := by decide

theorem test_ccf : reaches (at8000 { State.reset with f := 0xFE } [0x3F])
    (fun t => t.af == 0x00C5 && t.pc == 0x8001 && t.r == 0x01 && t.tacts == 4) := by decide

theorem test_scf : reaches (at8000 { State.reset with a := 0xFF, f := 0x12 } [0x37])
    (fun t => t.af == 0xFF29 && t.pc == 0x8001 && t.r == 0x01 && t.tacts == 4) := by decide

theorem test_ei : reaches (at8000 State.reset [0xFB])
    (fun t => t.pc == 0x8001 && t.iff1 == true && t.iff2 == true && t.r == 0x01 && t.tacts == 4) := by decide

theorem test_im_2 : reaches (at8000 State.reset [0xED, 0x5E])
    (fun t => t.pc == 0x8002 && t.im == .im2 && t.r == 0x02 && t.tacts == 8) := by decide

theorem test_nop_undefined_ed : reaches (at8000 { State.reset with a := 0x11, f := 0x22 } [0xED, 0x00])
    (fun t => t.pc == 0x8002 && t.r == 0x02 && t.tacts == 8) := by decide

theorem test_nop_with_three_prefixes : reaches (at8000 State.reset [0xDD, 0xFD, 0xDD, 0x00])
    (fun t => t.pc == 0x8004 && t.r == 0x04 && t.tacts == 16) := by decide

theorem test_add_hl_bc : reaches (at8000 { State.reset with h := 0x0F, l := 0xFF, c := 0x01, f := 0xC4 } [0x09])
    (fun t => t.af == 0x00D4 && t.hl == 0x1000 && t.pc == 0x8001 && t.wz == 0x1000 && t.r == 0x01 && t.tacts == 11) := by decide

theorem test_add_ix_ix : reaches (at8000 { State.reset with ix := 0x2800 } [0xDD, 0x29])
    (fun t => t.af == 0x0010 && t.ix == 0x5000 && t.pc == 0x8002 && t.wz == 0x2801 && t.r == 0x02 && t.tacts == 15) := by decide

theorem test_adc_hl_bc : reaches (at8000 { State.reset with h := 0x7F, l := 0xFF, f := 0x01 } [0xED, 0x4A])
    (fun t => t.af == 0x0094 && t.hl == 0x8000 && t.pc == 0x8002 && t.wz == 0x8000 && t.r == 0x02 && t.tacts == 15) := by decide

theorem test_sbc_hl_de : reaches (at8000 { State.reset with h := 0x80, e := 0x01 } [0xED, 0x52])
    (fun t => t.af == 0x003E && t.hl == 0x7FFF && t.pc == 0x8002 && t.wz == 0x8001 && t.r == 0x02 && t.tacts == 15) := by decide

theorem test_inc_sp : reaches (at8000 { State.reset with sp := 0xFFFF } [0x33])
    (fun t => t.sp == 0x0000 && t.pc == 0x8001 && t.r == 0x01 && t.tacts == 6) := by decide

theorem test_dec_iy : reaches (at8000 State.reset [0xFD, 0x2B])
    (fun t => t.iy == 0xFFFF && t.pc == 0x8002 && t.r == 0x02 && t.tacts == 10) := by decide

theorem test_rlca : reaches (at8000 { State.reset with a := 0x80, f := 0xC4 } [0x07])
    (fun t => t.af == 0x01C5 && t.pc == 0x8001 && t.r == 0x01 && t.tacts == 4) := by decide

theorem test_rra : reaches (at8000 { State.reset with a := 0x01, f := 0x01 } [0x1F])
    (fun t => t.af == 0x8001 && t.pc == 0x8001 && t.r == 0x01 && t.tacts == 4) := by decide

theorem test_rl_a : reaches (at8000 { State.reset with a := 0x80 } [0xCB, 0x17])
    (fun t => t.af == 0x0045 && t.pc == 0x8002 && t.r == 0x02 && t.tacts == 8) := by decide

theorem test_sll_a : reaches (at8000 { State.reset with a := 0x80 } [0xCB, 0x37])
    (fun t => t.af == 0x0101 && t.pc == 0x8002 && t.r == 0x02 && t.tacts == 8) := by decide

theorem test_rlc_ixp1_b : reaches (at8000 { State.reset with ix := 0x4000, b := 0x55, c := 0x55, mem := [(0x4001, 0x81)] } [0xDD, 0xCB, 0x01, 0x00])
    (fun t => t.af == 0x0005 && t.bc == 0x0355 && t.pc == 0x8004 && t.wz == 0x4001 && t.r == 0x02 && t.tacts == 23 && t.bus.take 2 == [.writeByte 0x4001 0x03, .readByte 0x4001 0x81]) := by decide

theorem test_rld : reaches (at8000 { State.reset with a := 0x7A, h := 0x40, f := 0x01, mem := [(0x4000, 0x31)] } [0xED, 0x6F])
    (fun t => t.af == 0x7321 && t.pc == 0x8002 && t.wz == 0x4001 && t.r == 0x02 && t.tacts == 18 && t.bus.take 2 == [.writeByte 0x4000 0x1A, .readByte 0x4000 0x31]) := by decide

theorem test_rrd : reaches (at8000 { State.reset with a := 0x84, h := 0x40, mem := [(0x4000, 0x20)] } [0xED, 0x67])
    (fun t => t.af == 0x8080 && t.pc == 0x8002 && t.wz == 0x4001 && t.r == 0x02 && t.tacts == 18 && t.bus.take 2 == [.writeByte 0x4000 0x42, .readByte 0x4000 0x20]) := by decide

theorem test_bit_3_e : reaches (at8000 { State.reset with e := 0x28, f := 0xC3 } [0xCB, 0x5B])
    (fun t => t.af == 0x0039 && t.pc == 0x8002 && t.r == 0x02 && t.tacts == 8) := by decide

theorem test_bit_0_hl : reaches (at8000 { State.reset with h := 0x40, wz := 0x2800, f := 0x01, mem := [(0x4000, 0x01)] } [0xCB, 0x46])
    (fun t => t.af == 0x0039 && t.pc == 0x8002 && t.r == 0x02 && t.tacts == 12 && t.bus.take 1 == [.readByte 0x4000 0x01]) := by decide

theorem test_bit_0_iyp0_z_0_form : reaches (at8000 { State.reset with iy := 0x2800, f := 0x01, b := 0x77, c := 0x77, mem := [(0x2800, 0xFE)] } [0xFD, 0xCB, 0x00, 0x40])
    (fun t => t.af == 0x007D && t.pc == 0x8004 && t.wz == 0x2800 && t.r == 0x02 && t.tacts == 20 && t.bus.take 1 == [.readByte 0x2800 0xFE]) := by decide

theorem test_set_7_iym2_a : reaches (at8000 { State.reset with iy := 0x4002, a := 0x55, mem := [(0x4000, 0x01)] } [0xFD, 0xCB, 0xFE, 0xFF])
    (fun t => t.af == 0x8100 && t.pc == 0x8004 && t.wz == 0x4000 && t.r == 0x02 && t.tacts == 23 && t.bus.take 2 == [.writeByte 0x4000 0x81, .readByte 0x4000 0x01]) := by decide

theorem test_res_7_ixp127_b : reaches (at8000 { State.reset with ix := 0x4000, mem := [(0x407F, 0xFF)] } [0xDD, 0xCB, 0x7F, 0xB8])
    (fun t => t.bc == 0x7F00 && t.pc == 0x8004 && t.wz == 0x407F && t.r == 0x02 && t.tacts == 23 && t.bus.take 2 == [.writeByte 0x407F 0x7F, .readByte 0x407F 0xFF]) := by decide

theorem test_jp_z_9000_not_taken : reaches (at8000 State.reset [0xCA, 0x00, 0x90])
    (fun t => t.pc == 0x8003 && t.wz == 0x9000 && t.r == 0x01 && t.tacts == 10) := by decide

theorem test_jr_m2_to_itself : reaches (at8000 State.reset [0x18, 0xFE])
    (fun t => t.wz == 0x8000 && t.r == 0x01 && t.tacts == 12) := by decide

theorem test_jr_nz_p5_not_taken : reaches (at8000 { State.reset with f := 0x40 } [0x20, 0x05])
    (fun t => t.pc == 0x8002 && t.r == 0x01 && t.tacts == 7) := by decide

theorem test_jp_iy : reaches (at8000 { State.reset with iy := 0x1234, h := 0x55, l := 0x55 } [0xFD, 0xE9])
    (fun t => t.pc == 0x1234 && t.r == 0x02 && t.tacts == 8) := by decide

theorem test_djnz_p5_b_0_wraps : reaches (at8000 State.reset [0x10, 0x05])
    (fun t => t.bc == 0xFF00 && t.pc == 0x8007 && t.wz == 0x8007 && t.r == 0x01 && t.tacts == 13) := by decide

theorem test_call_9000 : reaches (at8000 State.reset [0xCD, 0x00, 0x90])
    (fun t => t.sp == 0xFFFE && t.pc == 0x9000 && t.wz == 0x9000 && t.r == 0x01 && t.tacts == 17 && t.bus.take 2 == [.writeByte 0xFFFE 0x03, .writeByte 0xFFFF 0x80]) := by decide

theorem test_call_nc_9000_not_taken : reaches (at8000 { State.reset with sp := 0x4000, f := 0x01 } [0xD4, 0x00, 0x90])
    (fun t => t.pc == 0x8003 && t.wz == 0x9000 && t.r == 0x01 && t.tacts == 10) := by decide

theorem test_ret_z_taken : reaches (at8000 { State.reset with sp := 0x4000, f := 0x40, mem := [(0x4000, 0x34), (0x4001, 0x12)] } [0xC8])
    (fun t => t.sp == 0x4002 && t.pc == 0x1234 && t.wz == 0x1234 && t.r == 0x01 && t.tacts == 11 && t.bus.take 2 == [.readByte 0x4001 0x12, .readByte 0x4000 0x34]) := by decide

theorem test_reti : reaches (at8000 { State.reset with sp := 0x4000, iff2 := true, mem := [(0x4000, 0x34), (0x4001, 0x12)] } [0xED, 0x4D])
    (fun t => t.sp == 0x4002 && t.pc == 0x1234 && t.wz == 0x1234 && t.iff1 == true && t.r == 0x02 && t.tacts == 14 && t.bus.take 2 == [.readByte 0x4001 0x12, .readByte 0x4000 0x34]) := by decide

theorem test_retn_duplicate : reaches (at8000 { State.reset with sp := 0xFFFF, iff2 := true, mem := [(0x0000, 0x56), (0xFFFF, 0x78)] } [0xED, 0x7D])
    (fun t => t.sp == 0x0001 && t.pc == 0x5678 && t.wz == 0x5678 && t.iff1 == true && t.r == 0x02 && t.tacts == 14 && t.bus.take 2 == [.readByte 0x0000 0x56, .readByte 0xFFFF 0x78]) := by decide

theorem test_rst_00h : reaches (at8000 { State.reset with sp := 0x0001 } [0xC7])
    (fun t => t.sp == 0xFFFF && t.pc == 0x0000 && t.r == 0x01 && t.tacts == 11 && t.bus.take 2 == [.writeByte 0xFFFF 0x01, .writeByte 0x0000 0x80]) := by decide

theorem test_in_a_fe : reaches (at8000 { State.reset with a := 0x7F, f := 0xFF, portInputs := [0xBF] } [0xDB, 0xFE])
    (fun t => t.af == 0xBFFF && t.pc == 0x8002 && t.wz == 0x7FFF && t.r == 0x01 && t.tacts == 11 && t.bus.take 1 == [.readPort 0x7FFE 0xBF]) := by decide

theorem test_in_a_c : reaches (at8000 { State.reset with b := 0x7F, c := 0xFE, f := 0x01, portInputs := [0xBF] } [0xED, 0x78])
    (fun t => t.af == 0xBFA9 && t.pc == 0x8002 && t.wz == 0x7FFF && t.r == 0x02 && t.tacts == 12 && t.bus.take 1 == [.readPort 0x7FFE 0xBF]) := by decide

theorem test_out_c_0 : reaches (at8000 { State.reset with b := 0x12, c := 0xFE } [0xED, 0x71])
    (fun t => t.pc == 0x8002 && t.wz == 0x12FF && t.r == 0x02 && t.tacts == 12 && t.bus.take 1 == [.writePort 0x12FE 0x00]) := by decide

theorem test_ini : reaches (at8000 { State.reset with b := 0x01, c := 0xFF, h := 0xFF, l := 0xFF, portInputs := [0x80] } [0xED, 0xA2])
    (fun t => t.af == 0x0046 && t.bc == 0x00FF && t.hl == 0x0000 && t.pc == 0x8002 && t.wz == 0x0200 && t.r == 0x02 && t.tacts == 16 && t.bus.take 2 == [.writeByte 0xFFFF 0x80, .readPort 0x01FF 0x80]) := by decide

theorem test_outi : reaches (at8000 { State.reset with b := 0x01, c := 0xFE, h := 0x40, l := 0xFF, mem := [(0x40FF, 0x80)] } [0xED, 0xA3])
    (fun t => t.af == 0x0046 && t.bc == 0x00FE && t.hl == 0x4100 && t.pc == 0x8002 && t.wz == 0x00FF && t.r == 0x02 && t.tacts == 16 && t.bus.take 2 == [.writePort 0x00FE 0x80, .readByte 0x40FF 0x80]) := by decide

theorem test_nop : reaches (at8000 { State.reset with a := 0x12, f := 0xD7, b := 0x34, c := 0x56, d := 0x78, e := 0x9A, h := 0xBC, l := 0xDE, ix := 0x1111, iy := 0x2222, sp := 0x4000, i := 0x3B, r := 0x7F, iff1 := true, iff2 := true } [0x00])
    (fun t => t.pc == 0x8001 && t.r == 0x00 && t.tacts == 4) := by decide

/-- A table word runs as the first instruction after reset: 3E is LD A,n, with n = 0. -/
theorem test_withFetchWord : reaches (State.reset.withFetchWord 8 0x76) (fun t => t.halted && t.pc == 1 && t.tacts == 4) ∧
    reaches (({ State.reset with a := 0x55 } : State).withFetchWord 8 0x3E) (fun t => t.a == 0 && t.pc == 2 && t.tacts == 7) := by decide

/-! ## Interrupts, HALT and reset, from 95_test_vectors.md tables S3, S5 and V60 and from 60_exceptions.md R471 -/

/-- The start of table V60: two NOPs at 8000, SP = 4000. -/
def nops : State := at8000 { State.reset with sp := 0x4000 } [0x00, 0x00]

theorem test_int_mode1 : reaches ({ nops with iff1 := true, iff2 := true, im := .im1 }.requestInterrupt 0xFF)
    (fun t => t.pc == 0x0038 && t.sp == 0x3FFE && t.iff1 == false && t.iff2 == false && t.r == 0x01 && t.wz == 0x0038 && t.intPending == false && t.tacts == 13 && t.bus == [.writeByte 0x3FFE 0x00, .writeByte 0x3FFF 0x80]) := by decide

theorem test_int_mode2 : reaches ({ nops with iff1 := true, iff2 := true, im := .im2, i := 0x3B, mem := [(0x3BFF, 0x34), (0x3C00, 0x12)] }.requestInterrupt 0xFF)
    (fun t => t.pc == 0x1234 && t.sp == 0x3FFE && t.iff1 == false && t.iff2 == false && t.r == 0x01 && t.wz == 0x1234 && t.tacts == 19 && t.bus.take 2 == [.readByte 0x3C00 0x12, .readByte 0x3BFF 0x34]) := by decide

theorem test_int_mode0 : reaches ({ nops with iff1 := true, iff2 := true }.requestInterrupt 0xD7)
    (fun t => t.pc == 0x0010 && t.sp == 0x3FFE && t.iff1 == false && t.iff2 == false && t.r == 0x01 && t.wz == 0x0010 && t.tacts == 13) := by decide

theorem test_int_masked : reaches ({ nops with im := .im1 }.requestInterrupt 0xFF)
    (fun t => t.pc == 0x8001 && t.sp == 0x4000 && t.r == 0x01 && t.intPending == true && t.tacts == 4) := by decide

theorem test_int_after_ei : reaches ({ nops with iff1 := true, iff2 := true, eiDelay := true, im := .im1 }.requestInterrupt 0xFF)
    (fun t => t.pc == 0x8001 && t.intPending == true && t.eiDelay == false && t.tacts == 4) := by decide

theorem test_nmi : reaches ({ nops with iff1 := false, iff2 := true }.requestNmi)
    (fun t => t.pc == 0x0066 && t.sp == 0x3FFE && t.iff1 == false && t.iff2 == false && t.r == 0x01 && t.wz == 0x0066 && t.nmiPending == false && t.tacts == 11 && t.bus == [.writeByte 0x3FFE 0x00, .writeByte 0x3FFF 0x80]) := by decide

theorem test_nmi_before_int : reaches ({ nops with iff1 := true, iff2 := true, im := .im1 }.requestInterrupt 0xFF).requestNmi
    (fun t => t.pc == 0x0066 && t.iff1 == false && t.iff2 == true && t.intPending == true && t.nmiPending == false) := by decide

theorem test_halted_cycle : reaches { nops with pc := 0x8001, halted := true, r := 0x01 }
    (fun t => t.pc == 0x8001 && t.halted == true && t.r == 0x02 && t.tacts == 4 && t.bus == []) := by decide

theorem test_halt_nmi : reaches ({ nops with pc := 0x8001, halted := true, r := 0x01, tacts := 4 }.requestNmi)
    (fun t => t.pc == 0x0066 && t.halted == false && t.r == 0x02 && t.tacts == 15 && t.peek 0x3FFF == 0x80 && t.peek 0x3FFE == 0x01) := by decide

theorem test_reset_call :
    let s := { State.reset with
      pc := 0x8000, sp := 0x4000, a := 0x12, f := 0xD7, wz := 0x1234, i := 0x3B, r := 0x55, im := .im2, iff1 := true, iff2 := true,
      halted := true, eiDelay := true, intPending := true, nmiPending := true, tacts := 1000 }
    let t := s.hostReset
    t.pc = 0 ∧ t.i = 0 ∧ t.r = 0 ∧ t.im = .im0 ∧ t.iff1 = false ∧ t.iff2 = false ∧ t.halted = false ∧ t.eiDelay = false ∧
      t.intPending = false ∧ t.nmiPending = false ∧ t.tacts = 0 ∧ t.sp = 0x4000 ∧ t.af = 0x12D7 ∧ t.wz = 0x1234 := by decide

theorem test_exchange_shadow :
    let s := { State.reset with a := 0x12, f := 0x34, b := 0x56, c := 0x78, a' := 0x0F, f' := 0x1E, h' := 0x69, l' := 0x78 }
    s.exchangeShadow.af = 0x0F1E ∧ s.exchangeShadow.bc = 0x0000 ∧ s.exchangeShadow.hl = 0x6978 ∧ s.exchangeShadow.exchangeShadow = s := by decide

/-- S8, one entry of each table: A = 9A without N, A = FA with N, H and C. -/
theorem test_daa_table : daa8 0x9A (Flags.ofByte 0x00) = (0x00, Flags.ofByte 0x55) ∧ daa8 0xFA (Flags.ofByte 0x13) = (0x94, Flags.ofByte 0x83) ∧
    daa8 0x0F (Flags.ofByte 0x10) = (0x15, Flags.ofByte 0x10) := by decide

/-- S7, entries 7F and FF of the INC table, 80 and 01 of the DEC table, old carry 0. -/
theorem test_inc_dec_table : (inc8 0x7F (Flags.ofByte 0)).2.toByte = 0x94 ∧ (inc8 0xFF (Flags.ofByte 0)).2.toByte = 0x50 ∧
    (dec8 0x80 (Flags.ofByte 0)).2.toByte = 0x3E ∧ (dec8 0x01 (Flags.ofByte 0)).2.toByte = 0x42 := by decide

/-! ## Witnesses: for every obligation with hypotheses, states and operands that meet them together, clause by clause -/

theorem exists_next {s : State} {check : State → Bool} (h : reaches s check = true) : ∃ t, step s = .next t ∧ check t = true := by
  unfold reaches at h
  split at h
  · exact ⟨_, ‹_›, h⟩
  · cases h

theorem witness_DecodeEncode : Instr.wellFormed .nop = true ∧ Instr.wellFormed (.retn 0) = true ∧ Instr.wellFormed (.retn 7) = true ∧
    Instr.wellFormed (.nopEd 0x00) = true ∧ Instr.wellFormed (.nopEd 0xFF) = true ∧ Instr.wellFormed (.setBMemIyR 7 0xFF .a) = true ∧
    Instr.wellFormed (.ldQQ .iy .xyl .xyl) = true := by decide

theorem witness_DecodeReencodes : decode [0xFD, 0xED, 0x43, 0xFF, 0xFF] = .ok ⟨[.prefixFD none, .prefixED (some .iy)], .ldMemNnDd .bc 0xFFFF, 5, 3⟩ ∧
    decode [0x00] = .ok ⟨[], .nop, 1, 1⟩ := by decide

theorem witness_DecodeLength : decode [0xCB, 0x00] = .ok ⟨[.prefixCB none], .rlcR .b, 2, 2⟩ ∧
    decode [0xDD, 0xCB, 0x80, 0xFF] = .ok ⟨[.prefixDD none, .prefixCB (some .ix)], .setBMemIxR 7 0x80 .a, 4, 2⟩ ∧
    decode [0xED, 0xFF] = .ok ⟨[.prefixED none], .nopEd 0xFF, 2, 2⟩ ∧ decode [0xFF] = .ok ⟨[], .rst 7, 1, 1⟩ := by decide

theorem witness_DecodeTotal : leadingPrefixes [0xDD, 0x00, 0x00, 0x00, 0x00] + 4 = [0xDD, 0x00, 0x00, 0x00, 0x00].length ∧
    decode [0x3E, 0xFF] = .ok ⟨[], .ldRN .a 0xFF, 2, 1⟩ ∧
    decode [] = .error .incomplete ∧ decode [0xDD, 0xCB, 0xFF] = .error .incomplete ∧ decode [0xFD, 0x36, 0xFF] = .error .incomplete := by decide

theorem witness_RedundantPrefixes : decode (IndexReg.ix.byte :: [0x00]) = .ok ⟨IndexReg.ix.prefixUnit none :: [.baseRedundant .ix], .nop, 2, 2⟩ ∧
    decode (0xED :: [0xFF]) = .ok ⟨[.prefixED none], .nopEd 0xFF, 2, 2⟩ ∧
    decodeXY .iy 0xFF 0 0 = none ∧ decode (0xFF :: []) = .ok ⟨[], .rst 7, 1, 1⟩ := by decide

theorem witness_MemoryReadWrite : Memory.wf [] = true ∧ Memory.wf [(0, 1), (65535, 0xFF)] = true ∧ Memory.wf [(65536, 1)] = false ∧ Memory.wf [(0, 0)] = false ∧
    ∀ a : Word, Memory.read [(0, 1), (65535, 0xFF)] a = Memory.read [(0, 1), (65535, 0xFF)] a :=
  ⟨by decide, by decide, by decide, by decide, fun _ => rfl⟩

theorem witness_PushThenPop :
    let s := { State.reset with sp := 0x0001, a := 0x12, mem := [(0xFFFF, 1)], memMap := [⟨0x0001, 0x4000, .rom⟩] }
    s.mem.wf = true ∧ s.memMap.kindAt (s.sp - 1) = .ram ∧ s.memMap.kindAt (s.sp - 2) = .ram ∧ s.memMap.kindAt 0x4000 ≠ .device := by decide

theorem witness_PortInstructions : ({ State.reset with portInputs := [0xFF] } : State).portInputs = 0xFF :: [] := by decide

theorem witness_EveryInstructionCompletes : Instr.wellFormed .halt = true ∧ Instr.wellFormed (.incMemIx 0xFF) = true := by decide

/-- ROM below 4000, a device at 8000 and RAM elsewhere. -/
def board : State := { State.reset with memMap := [⟨0x0000, 0x4000, .rom⟩, ⟨0x8000, 1, .device⟩] }

/-- 20_memory.md R79, 70_reset_and_hazards.md R534: LD (HL),55 with HL in ROM, the last byte of it, calls the host and changes nothing; one byte further is RAM. -/
theorem test_rom : (match exec (.ldMemHlN 0x55) { board with h := 0x3F, l := 0xFF } with
      | .next t => t.peek 0x3FFF == 0 && t.mem == [] && t.bus == [.writeByte 0x3FFF 0x55]
      | _ => false) = true ∧
    (match exec (.ldMemHlN 0x55) { board with h := 0x40, l := 0x00 } with
      | .next t => t.peek 0x4000 == 0x55
      | _ => false) = true := by decide

/-- R79: what `LD A,(nn)` reads at a device is the device's answer after the calls before it. -/
theorem test_device (calls : List BusEvent) : exec (.ldAMemNn 0x8000) { board with bus := calls } =
    .next { board with
      a := Config.deviceByte calls 0x8000, wz := 0x8001, bus := .readByte 0x8000 (Config.deviceByte calls 0x8000) :: calls, tacts := 13 } := rfl

theorem witness_MemoryKinds : board.mem.wf = true ∧ board.memMap.kindAt 0x4000 = .ram ∧ board.memMap.kindAt 0x7FFF = .ram ∧
    board.memMap.kindAt 0x0000 = .rom ∧ board.memMap.kindAt 0x3FFF = .rom ∧ board.memMap.kindAt 0x8000 = .device ∧ board.memMap.kindAt 0x8001 = .ram ∧
    MemMap.kindAt [⟨0xFFFF, 2, .rom⟩] 0x0000 = .rom ∧ MemMap.kindAt [⟨0xFFFF, 2, .rom⟩] 0x0001 = .ram := by decide

theorem witness_InvariantReset : Memory.wf [(0, 0xF3), (65535, 0xC9)] = true := by decide

theorem witness_StoresOnlyWhereStated : (∃ t, exec (.pushQq .af) State.reset = .next t) ∧ (0x0000 : Word) ∉ storedTo (.pushQq .af) State.reset ∧
    (∃ t, exec (.callCcNn .z 0xFFFF) State.reset = .next t) ∧ storedTo (.callCcNn .z 0xFFFF) State.reset = [] ∧
    (∃ t, exec (.ldMemHlN 0x55) board = .next t) ∧ 0x0000 ∈ storedTo (.ldMemHlN 0x55) board ∧ board.memMap.kindAt 0x0000 ≠ .ram ∧ board.memMap.kindAt 0x0000 ≠ .device :=
  ⟨⟨_, rfl⟩, by decide, ⟨_, rfl⟩, by decide, ⟨_, rfl⟩, by decide, by decide, by decide⟩

theorem witness_BusTraffic : (∃ t, exec .ini State.reset = .next t) ∧ (∃ t, exec .exMemSpHl State.reset = .next t) ∧ Instr.usesPort .exMemSpHl = false :=
  ⟨⟨_, rfl⟩, ⟨_, rfl⟩, rfl⟩

theorem witness_ControlStateWriters : (∃ t, exec .nop { State.reset with halted := true } = .next t) ∧
    (∃ t, exec .ldIA State.reset = .next t) ∧ (∃ t, exec .ldRA State.reset = .next t) ∧ (∃ t, exec .halt State.reset = .next t) :=
  ⟨⟨_, rfl⟩, ⟨_, rfl⟩, ⟨_, rfl⟩, ⟨_, rfl⟩⟩

theorem witness_ShadowSetUse : (∃ t, exec .exx State.reset = .next t) ∧ Instr.exx ≠ .exAfAf ∧ (∃ t, exec .exAfAf State.reset = .next t) ∧ Instr.exAfAf ≠ .exx :=
  ⟨⟨_, rfl⟩, by decide, ⟨_, rfl⟩, by decide⟩

/-- A state whose next step accepts a maskable interrupt in the given mode. -/
def interrupted (m : IntMode) (busByte : Byte) : State := { nops with iff1 := true, iff2 := true, im := m }.requestInterrupt busByte

theorem interrupted_takesInt (m : IntMode) (busByte : Byte) : (interrupted m busByte).takesInt := ⟨rfl, rfl, rfl, rfl⟩

theorem not_runs_of_takesInt {s : State} (h : s.takesInt) : ¬s.runsInstruction := fun hr => hr.1.2 h.2

/-- A state whose next step is a halted cycle. -/
def stopped : State := { nops with halted := true }

theorem stopped_acceptsNothing : stopped.acceptsNothing := ⟨rfl, fun h => Bool.noConfusion h.1⟩

theorem nops_runsInstruction : nops.runsInstruction := ⟨⟨rfl, fun h => Bool.noConfusion h.1⟩, rfl⟩

theorem witness_VectorRegisterUse : (∃ t, exec .ldAI State.reset = .next t) ∧ (∃ t, exec .nop State.reset = .next t) ∧
    (∃ t, step stopped = .next t) ∧ ¬stopped.runsInstruction ∧ ¬(stopped.takesInt ∧ stopped.im = .im2) ∧
    (∃ t, step (interrupted .im2 0xFF) = .next t) ∧ ¬(interrupted .im2 0xFF).runsInstruction ∧ (interrupted .im2 0xFF).takesInt ∧ (interrupted .im2 0xFF).im = .im2 :=
  ⟨⟨_, rfl⟩, ⟨_, rfl⟩, ⟨_, rfl⟩, fun h => Bool.noConfusion h.2, fun h => Bool.noConfusion h.1.2.1, ⟨_, rfl⟩,
    not_runs_of_takesInt (interrupted_takesInt _ _), interrupted_takesInt _ _, rfl⟩

theorem witness_FlagsKept : (∃ t, exec (.popQq .bc) State.reset = .next t) ∧ Instr.writesF (.popQq .bc) = false ∧ Instr.writesF (.popQq .af) = true :=
  ⟨⟨_, rfl⟩, rfl, rfl⟩

theorem witness_IndexAndStackPointerUse : (∃ t, exec (.ldRMemIx .h 0x80) State.reset = .next t) ∧ Instr.indexOf (.ldRMemIx .h 0x80) ≠ some .iy ∧
    Instr.movesSp (.ldRMemIx .h 0x80) = false ∧ (∃ t, exec .ldSpIy State.reset = .next t) ∧ Instr.indexOf .ldSpIy ≠ some .ix :=
  ⟨⟨_, rfl⟩, by decide, rfl, ⟨_, rfl⟩, by decide⟩

theorem witness_ObserversChangeNothing : (∃ t, exec .ret { State.reset with branchObserver := true, stackObserver := true } = .next t) ∧
    (∃ t, exec .nop State.reset = .next t) := ⟨⟨_, rfl⟩, ⟨_, rfl⟩⟩

/-- A state whose PC stands at the last address of memory, so that the instruction wraps. -/
def wrapped (bytes : List Byte) : State := ({ State.reset with pc := 0xFFFF } : State).place 0xFFFF bytes

theorem witness_StepRunsDecoded :
    let i := Instr.setBMemIyR 7 0xFE .a
    (wrapped (encode i)).runsInstruction ∧ Instr.wellFormed i = true ∧ (wrapped (encode i)).holdsBytes (wrapped (encode i)).pc (encode i) ∧
    leadingPrefixes (encode i) < 65536 ∧ (∃ d, decode (encode i) = .ok d) ∧
    nops.runsInstruction ∧ Instr.wellFormed .nop = true ∧ Instr.units .nop = [] ∧ nops.holdsBytes nops.pc (encode .nop) :=
  ⟨⟨⟨rfl, fun h => Bool.noConfusion h.1⟩, rfl⟩, rfl, by unfold State.holdsBytes; decide, by decide, ⟨_, rfl⟩, nops_runsInstruction, rfl, rfl,
    by unfold State.holdsBytes; decide⟩

theorem witness_AcceptNmi : nops.requestNmi.nmiPending = true ∧ (interrupted .im1 0xFF).requestNmi.nmiPending = true := by decide

theorem witness_AcceptInt :
    ((interrupted .im0 0xC7).takesInt ∧ (interrupted .im0 0xC7).im = .im0 ∧ (interrupted .im0 0xC7).intBus &&& 0xC7 = 0xC7) ∧
    ((interrupted .im0 0xFF).takesInt ∧ (interrupted .im0 0xFF).im = .im0 ∧ (interrupted .im0 0xFF).intBus &&& 0xC7 = 0xC7) ∧
    ((interrupted .im0 0xC6).takesInt ∧ (interrupted .im0 0xC6).im = .im0 ∧ (interrupted .im0 0xC6).intBus &&& 0xC7 ≠ 0xC7) ∧
    ((interrupted .im1 0x00).takesInt ∧ (interrupted .im1 0x00).im = .im1) ∧
    ((interrupted .im2 0xFF).takesInt ∧ (interrupted .im2 0xFF).im = .im2) :=
  ⟨⟨interrupted_takesInt _ _, by decide⟩, ⟨interrupted_takesInt _ _, by decide⟩, ⟨interrupted_takesInt _ _, by decide⟩,
    ⟨interrupted_takesInt _ _, rfl⟩, interrupted_takesInt _ _, rfl⟩

theorem witness_StepPriority : (interrupted .im1 0xFF).requestNmi.nmiPending = true ∧
    ((interrupted .im1 0xFF).takesInt ∧ ∃ t, step (interrupted .im1 0xFF) = .next t) ∧
    (stopped.acceptsNothing ∧ stopped.halted = true ∧ ∃ t, step stopped = .next t) ∧ (nops.acceptsNothing ∧ ∃ t, step nops = .next t) :=
  ⟨rfl, ⟨interrupted_takesInt _ _, _, rfl⟩, ⟨stopped_acceptsNothing, rfl, _, rfl⟩, nops_runsInstruction.1,
    (exists_next (s := nops) (check := fun _ => true) (by decide)).imp fun _ h => h.1⟩

theorem read_constant (v : Byte) (a : Word) (ks : List Nat) (h : a.toNat ∈ ks) : Memory.read (ks.map fun k => (k, v)) a = v := by
  induction ks with
  | nil => cases h
  | cons k ks ih =>
    simp only [List.map_cons, Memory.read]
    split
    · rfl
    · next hk => exact ih ((List.mem_cons.mp h).resolve_left fun e => hk e.symm)

/-- DD at every address below the bound. -/
def filled (n : Nat) : State := { State.reset with mem := (List.range n).map fun k => (k, 0xDD) }

theorem filled_runsInstruction (n : Nat) : (filled n).runsInstruction := ⟨⟨rfl, fun h => Bool.noConfusion h.1⟩, rfl⟩

theorem filled_allPrefixes (n : Nat) (h : 65536 ≤ n) : (filled n).allPrefixes := by
  intro b hb
  rw [State.bytesAt_eq_map (fun _ _ => by simp [filled, State.reset, State.construct, MemMap.kindAt])] at hb
  obtain ⟨k, -, rfl⟩ := List.mem_map.mp hb
  exact .inl (read_constant 0xDD _ _ (List.mem_range.mpr (Nat.lt_of_lt_of_le (BitVec.isLt _) h)))

theorem witness_StepStopsExactly :
    (∃ s : State, s.runsInstruction ∧ s.allPrefixes) ∧ (nops.runsInstruction ∧ ¬nops.allPrefixes) ∧ (interrupted .im0 0x00).im0Unanswered ∧
    (¬(interrupted .im0 0xFF).runsInstruction ∧ ¬(interrupted .im0 0xFF).im0Unanswered) :=
  ⟨⟨filled 65536, filled_runsInstruction _, filled_allPrefixes _ (Nat.le_refl _)⟩,
    ⟨nops_runsInstruction, fun h => absurd (h 0x00 (.head _)) (by decide)⟩, ⟨interrupted_takesInt _ _, rfl, by decide⟩,
    not_runs_of_takesInt (interrupted_takesInt _ _), fun h => h.2.2 (by decide)⟩

/-- EI and one further byte at 8000, with maskable interrupts disabled. -/
def afterEi (next : Byte) : State := at8000 { State.reset with sp := 0x4000, im := .im1 } [0xFB, next]

theorem afterEi_runsInstruction (next : Byte) : (afterEi next).runsInstruction := ⟨⟨rfl, fun h => Bool.noConfusion h.1⟩, rfl⟩

theorem witness_EiDelaysOneInstruction :
    ((afterEi 0x00).runsInstruction ∧ (afterEi 0x00).peek (afterEi 0x00).pc = 0xFB ∧ ∃ t, step (afterEi 0x00) = .next t ∧
      reaches (t.requestInterrupt 0xFF) (fun u => !u.eiDelay && u.iff1) = true) ∧
    ((afterEi 0xFB).runsInstruction ∧ (afterEi 0xFB).peek (afterEi 0xFB).pc = 0xFB ∧ ∃ t, step (afterEi 0xFB) = .next t ∧
      reaches (t.requestInterrupt 0xFF) (fun u => u.eiDelay) = true) :=
  ⟨⟨afterEi_runsInstruction _, by decide, exists_next (by decide)⟩, afterEi_runsInstruction _, by decide, exists_next (by decide)⟩

/-- An NMI pending at 8000 and RETN at the vector. -/
def nmiWith (sp : Word) (y : Fin 8) : State := ({ State.reset with pc := 0x8000, sp := sp, iff1 := true, iff2 := true, nmiPending := true } : State).place 0x0066 (encode (.retn y))

theorem witness_NmiThenRetn :
    ((∀ a, (nmiWith 0x0066 0).memMap.kindAt a = .ram) ∧ (nmiWith 0x0066 0).mem.wf = true ∧ (nmiWith 0x0066 0).nmiPending = true ∧ (nmiWith 0x0066 0).holdsBytes 0x0066 (encode (.retn 0)) ∧
      (nmiWith 0x0066 0).sp - 1 = 0x0065) ∧
    ((∀ a, (nmiWith 0x006A 7).memMap.kindAt a = .ram) ∧ (nmiWith 0x006A 7).mem.wf = true ∧ (nmiWith 0x006A 7).nmiPending = true ∧ (nmiWith 0x006A 7).holdsBytes 0x0066 (encode (.retn 7)) ∧
      (nmiWith 0x006A 7).sp - 2 = 0x0068) ∧ (0 : Fin 8) ≠ 1 ∧ (7 : Fin 8) ≠ 1 :=
  ⟨⟨fun _ => rfl, by decide, rfl, by unfold State.holdsBytes; decide, by decide⟩, ⟨fun _ => rfl, by decide, rfl, by unfold State.holdsBytes; decide, by decide⟩, by decide, by decide⟩

theorem witness_StepTakesTime : (∃ t, step stopped = .next t) ∧ ¬stopped.runsInstruction ∧
    nops.runsInstruction ∧ (∃ t, step nops = .next t) ∧ ∃ d, decode nops.window = .ok d ∧ d.instr ≠ .ldRA :=
  ⟨⟨_, rfl⟩, fun h => Bool.noConfusion h.2, nops_runsInstruction,
    (exists_next (s := nops) (check := fun _ => true) (by decide)).imp fun _ h => h.1, ⟨_, rfl, by decide⟩⟩

theorem witness_InvariantStep : (interrupted .im1 0xFF).Inv ∧ (∃ t, step (interrupted .im1 0xFF) = .next t) ∧
    State.Inv { nops with iff1 := true, iff2 := true, eiDelay := true } ∧
    ∃ t, step { nops with iff1 := true, iff2 := true, eiDelay := true } = .next t :=
  ⟨⟨by decide, fun _ => rfl, fun h => Bool.noConfusion h, fun _ => rfl⟩, ⟨_, rfl⟩, ⟨by decide, fun _ => rfl, fun _ => rfl, fun _ => rfl⟩,
    (exists_next (s := { nops with iff1 := true, iff2 := true, eiDelay := true }) (check := fun _ => true) (by decide)).imp fun _ h => h.1⟩

theorem witness_InvariantRun : State.reset.Inv ∧ ∃ t, Run State.reset t ∧ t.nmiPending = true ∧ t.tacts = 4 :=
  ⟨⟨rfl, fun h => Bool.noConfusion h, fun h => Bool.noConfusion h, fun _ => rfl⟩,
    (exists_next (s := State.reset) (check := fun t => t.tacts == 4) (by decide)).elim fun t h =>
      ⟨t.afterCall .requestNmi, .call _ (.step (.start _) h.1), rfl, by simpa [State.afterCall, State.requestNmi] using h.2⟩⟩

end Sys2Proof.Tests
end

section
/-! PROOFS. The two memory functions of the host, by kind of memory: rules for what a call answers and leaves, and O60 assembled from them. -/

namespace Sys2Proof.Machine

/-- R79: a device answers as the calls before this one make it answer. -/
theorem State.peek_of_device {s : State} {a : Word} (h : s.memMap.kindAt a = .device) : s.peek a = Config.deviceByte s.bus a := by
  simp [State.peek, h]

/-- R77: RAM gives back the byte it was given. -/
theorem State.peek_memWrite_same {s : State} {a : Word} (hram : s.memMap.kindAt a = .ram) (hwf : s.mem.wf = true) (v : Byte) :
    (s.memWrite a v).peek a = v :=
  calc (s.memWrite a v).peek a
    _ = (s.memWrite a v).mem.read a := State.peek_of_ne_device (by simp [hram])
    _ = (s.mem.write a v).read a := by rw [State.memWrite_mem, Memory.store_of_ram hram]
    _ = v := Memory.read_write_same hwf a v

/-- R79: a write shows at no other byte of RAM or ROM, and at no byte of ROM at all. -/
theorem State.peek_memWrite_other {s : State} {a b : Word} (hb : s.memMap.kindAt b ≠ .device) (h : b ≠ a ∨ s.memMap.kindAt b ≠ .ram) (v : Byte) :
    (s.memWrite a v).peek b = s.peek b :=
  calc (s.memWrite a v).peek b
    _ = (s.mem.store s.memMap a v).read b := State.peek_of_ne_device (s := s.memWrite a v) hb
    _ = s.mem.read b := Memory.read_store_other s.mem s.memMap a b v h
    _ = s.peek b := (State.peek_of_ne_device hb).symm

/-- The first region that holds an address says its kind (log 3). -/
theorem MemMap.kindAt_cons (r : Region) (rest : MemMap) (a : Word) :
    MemMap.kindAt (r :: rest) a = if (a - r.base).toNat < r.size then r.kind else MemMap.kindAt rest a := by
  simp [MemMap.kindAt, Region.holds]

/-- Settles O60, from the rules of the two memory functions for each kind of memory. -/
theorem memoryKinds : Obligations.MemoryKinds := by
  refine ⟨fun s a b v => ⟨?ramWrite, ?otherWrite, ?frame, ?readEffect, State.peek_of_device, rfl, rfl, rfl⟩, fun _ => rfl, MemMap.kindAt_cons⟩
  case ramWrite => exact fun hram hwf => ⟨State.peek_memWrite_same hram hwf v, State.memWrite_wf hwf a v⟩
  case otherWrite => exact fun h => Memory.store_of_ne_ram h s.mem v
  case frame =>
    intro hb h
    have h' : b ≠ a ∨ s.memMap.kindAt b ≠ .ram := h.imp_right fun hrom hram => by simp [hrom] at hram
    exact State.peek_memWrite_other hb h' v
  case readEffect => exact fun hb => ⟨State.peekNext_of_ne_device hb a, State.peek_of_ne_device hb⟩

end Sys2Proof.Machine
end

section
/-! PROOFS. Registers and flags: what a write of one register table reads back as, and the layout of the flag byte (O8, O9). -/

namespace Sys2Proof

theorem toInt_sext16 (d : Byte) : (sext16 d).toInt = d.toInt := BitVec.toInt_signExtend_of_le (by decide)

/-- 30_encoding.md R108: a displacement is added as a signed byte, modulo 65,536. -/
theorem toNat_add_sext16 (w : Word) (d : Byte) : ((w + sext16 d).toNat : Int) = ((w.toNat : Int) + d.toInt) % 65536 := by
  rw [← toInt_sext16, BitVec.toInt_eq_toNat_cond, BitVec.toNat_add]
  split <;> omega

namespace Machine

theorem State.reg8_setReg8 (s : State) (r r' : Reg8) (v : Byte) : (s.setReg8 r v).reg8 r' = if r' = r then v else s.reg8 r' := by
  cases r <;> cases r' <;> rfl

theorem State.pair_setPair (s : State) (p p' : RegPair) (v : Word) : (s.setPair p v).pair p' = if p' = p then v else s.pair p' := by
  cases p <;> cases p' <;> simp [State.setPair, State.setBc, State.setDe, State.setHl, State.pair, State.bc, State.de, State.hl]

theorem State.stackPair_setStackPair (s : State) (p p' : StackPair) (v : Word) :
    (s.setStackPair p v).stackPair p' = if p' = p then v else s.stackPair p' := by
  cases p <;> cases p' <;>
    simp [State.setStackPair, State.setBc, State.setDe, State.setHl, State.setAf, State.stackPair, State.bc, State.de, State.hl, State.af]

theorem State.index_setIndex (s : State) (xy xy' : IndexReg) (v : Word) : (s.setIndex xy v).index xy' = if xy' = xy then v else s.index xy' := by
  cases xy <;> cases xy' <;> rfl

theorem State.half_setHalf (s : State) (xy xy' : IndexReg) (p p' : Half) (v : Byte) :
    (s.setHalf xy p v).half xy' p' = if xy' = xy ∧ p' = p then v else s.half xy' p' := by
  by_cases h : xy' = xy
  · subst h
    cases p <;> cases p' <;> simp [State.setHalf, State.half, State.index_setIndex]
  · cases p <;> simp [State.setHalf, State.half, State.index_setIndex, h]

theorem State.halfReg_setHalfReg (s : State) (xy : IndexReg) (q q' : HalfReg) (v : Byte) :
    (s.setHalfReg xy q v).halfReg xy q' = if q' = q then v else s.halfReg xy q' := by
  cases q
  case xyh | xyl =>
    cases q'
    case xyh | xyl => simp [State.setHalfReg, State.halfReg, State.half_setHalf]
    all_goals cases xy <;> rfl
  all_goals cases q' <;> cases xy <;> rfl

/-- Settles O8, register table by register table. -/
theorem registerHalves : Obligations.RegisterHalves := by
  refine ⟨State.reg8_setReg8, State.pair_setPair, State.stackPair_setStackPair, State.half_setHalf, State.halfReg_setHalfReg,
    fun s xy => ⟨rfl, rfl, rfl, rfl, rfl, rfl, rfl⟩, fun s xy v => ⟨rfl, rfl, rfl, rfl, rfl, rfl, rfl⟩,
    fun s => ⟨toNat_word .., toNat_word .., toNat_word .., toNat_word ..⟩, fun s xy => ?index, fun s xy d => toNat_add_sext16 _ d⟩
  case index =>
    rw [← word_hi_lo (s.index xy), toNat_word]
    rfl

theorem Flags.ofByte_toByte (g : Flags) : Flags.ofByte g.toByte = g := by
  obtain ⟨s, z, r5, h, r3, pv, n, c⟩ := g
  revert s z r5 h r3 pv n c; decide

theorem Flags.toByte_ofByte (f : Byte) : (Flags.ofByte f).toByte = f := by
  revert f; decide

theorem Flags.toNat_toByte (g : Flags) : g.toByte.toNat = 128 * g.s.toNat + 64 * g.z.toNat + 32 * g.r5.toNat + 16 * g.h.toNat +
    8 * g.r3.toNat + 4 * g.pv.toNat + 2 * g.n.toNat + g.c.toNat := by
  obtain ⟨s, z, r5, h, r3, pv, n, c⟩ := g
  revert s z r5 h r3 pv n c; decide

/-- Settles O9. Both round trips are checked on all 256 patterns. -/
theorem flagByteLayout : Obligations.FlagByteLayout :=
  ⟨Flags.toByte_ofByte, Flags.ofByte_toByte, Flags.toNat_toByte, fun _ => ⟨rfl, rfl, rfl, rfl, rfl, rfl, rfl, rfl⟩, fun _ => ⟨rfl, rfl, rfl, rfl⟩⟩

end Machine
end Sys2Proof
end

section
/-! PROOFS. The reserved parts of the state, which few instructions reach: the shadow set, the index registers, I, R, the interrupt control state and the
requests. An instruction that is not listed for a part neither writes nor reads it: a change of that part commutes with the instruction. -/

namespace Sys2Proof.Machine

/-- A change of the fields that few instructions reach: the shadow set, the index registers, I and R, and the control state and requests. Each
field is changed by a function of its own, or left. -/
structure ReservedUpdate where
  a' : Byte → Byte := id
  f' : Byte → Byte := id
  b' : Byte → Byte := id
  c' : Byte → Byte := id
  d' : Byte → Byte := id
  e' : Byte → Byte := id
  h' : Byte → Byte := id
  l' : Byte → Byte := id
  ix : Word → Word := id
  iy : Word → Word := id
  i : Byte → Byte := id
  r : Byte → Byte := id
  iff1 : Bool → Bool := id
  iff2 : Bool → Bool := id
  im : IntMode → IntMode := id
  halted : Bool → Bool := id
  eiDelay : Bool → Bool := id
  intPending : Bool → Bool := id
  intBus : Byte → Byte := id
  nmiPending : Bool → Bool := id

namespace ReservedUpdate

/-- The state after the update. -/
def on (u : ReservedUpdate) (s : State) : State :=
  { s with
    a' := u.a' s.a', f' := u.f' s.f', b' := u.b' s.b', c' := u.c' s.c', d' := u.d' s.d', e' := u.e' s.e', h' := u.h' s.h', l' := u.l' s.l',
    ix := u.ix s.ix, iy := u.iy s.iy, i := u.i s.i, r := u.r s.r, iff1 := u.iff1 s.iff1, iff2 := u.iff2 s.iff2, im := u.im s.im,
    halted := u.halted s.halted, eiDelay := u.eiDelay s.eiDelay,
    intPending := u.intPending s.intPending, intBus := u.intBus s.intBus, nmiPending := u.nmiPending s.nmiPending }

/-- The update leaves alone what the instruction writes, and the value of what it only reads (10_state.md R22, R24, R29 to R34, R37). -/
structure Spares (u : ReservedUpdate) (i : Instr) (s : State) : Prop where
  shadowAf : i = .exAfAf → u.a' = id ∧ u.f' = id := by exact fun _ => ⟨rfl, rfl⟩
  shadowRest : i = .exx → u.b' = id ∧ u.c' = id ∧ u.d' = id ∧ u.e' = id ∧ u.h' = id ∧ u.l' = id := by
    exact fun _ => ⟨rfl, rfl, rfl, rfl, rfl, rfl⟩
  ix : i.indexOf = some .ix → u.ix = id := by exact fun _ => rfl
  iy : i.indexOf = some .iy → u.iy = id := by exact fun _ => rfl
  vector : i = .ldIA → u.i = id := by exact fun _ => rfl
  vectorRead : i = .ldAI → u.i s.i = s.i := by exact fun _ => rfl
  refresh : i = .ldRA → u.r = id := by exact fun _ => rfl
  refreshRead : i = .ldAR → u.r s.r = s.r := by exact fun _ => rfl
  mode : (∃ x5 x3, i = .im0 x5 x3) ∨ (∃ x5, i = .im1 x5) ∨ (∃ x5, i = .im2 x5) → u.im = id := by exact fun _ => rfl
  iff1 : i = .ei ∨ i = .di ∨ i = .reti ∨ (∃ y, i = .retn y) → u.iff1 = id := by exact fun _ => rfl
  iff2 : i = .ei ∨ i = .di → u.iff2 = id := by exact fun _ => rfl
  iff2Read : i = .reti ∨ (∃ y, i = .retn y) ∨ i = .ldAI ∨ i = .ldAR → u.iff2 s.iff2 = s.iff2 := by exact fun _ => rfl
  halted : i = .halt → u.halted = id := by exact fun _ => rfl
  eiDelay : i = .ei → u.eiDelay = id := by exact fun _ => rfl

/-! ## What the shared operations read is not reserved, and they keep what is -/

section
variable (u : ReservedUpdate) (s : State)

@[simp] theorem on_a : (u.on s).a = s.a := rfl
@[simp] theorem on_b : (u.on s).b = s.b := rfl
@[simp] theorem on_c : (u.on s).c = s.c := rfl
@[simp] theorem on_d : (u.on s).d = s.d := rfl
@[simp] theorem on_e : (u.on s).e = s.e := rfl
@[simp] theorem on_sp : (u.on s).sp = s.sp := rfl
@[simp] theorem on_pc : (u.on s).pc = s.pc := rfl
@[simp] theorem on_wz : (u.on s).wz = s.wz := rfl
@[simp] theorem on_tacts : (u.on s).tacts = s.tacts := rfl

@[simp] theorem on_reg8 (r : Reg8) : (u.on s).reg8 r = s.reg8 r := by cases r <;> rfl
@[simp] theorem on_pair (p : RegPair) : (u.on s).pair p = s.pair p := by cases p <;> rfl
@[simp] theorem on_stackPair (p : StackPair) : (u.on s).stackPair p = s.stackPair p := by cases p <;> rfl
@[simp] theorem on_cond (cc : Cond) : (u.on s).cond cc = s.cond cc := by cases cc <;> rfl
@[simp] theorem on_jrCond (cc : JrCond) : (u.on s).jrCond cc = s.jrCond cc := by cases cc <;> rfl
@[simp] theorem on_flags : (u.on s).flags = s.flags := rfl
@[simp] theorem on_bc : (u.on s).bc = s.bc := rfl
@[simp] theorem on_de : (u.on s).de = s.de := rfl
@[simp] theorem on_hl : (u.on s).hl = s.hl := rfl
@[simp] theorem on_peek (a : Word) : (u.on s).peek a = s.peek a := rfl
@[simp] theorem on_relative (e : Byte) : (u.on s).relative e = s.relative e := rfl
@[simp] theorem on_rotated (k : RotKind) (a : Word) : (u.on s).rotated k a = s.rotated k a := rfl

@[simp] theorem on_setReg8 (r : Reg8) (v : Byte) : (u.on s).setReg8 r v = u.on (s.setReg8 r v) := by cases r <;> rfl
@[simp] theorem on_setPair (p : RegPair) (v : Word) : (u.on s).setPair p v = u.on (s.setPair p v) := by cases p <;> rfl
@[simp] theorem on_setStackPair (p : StackPair) (v : Word) : (u.on s).setStackPair p v = u.on (s.setStackPair p v) := by cases p <;> rfl
@[simp] theorem on_setHl (v : Word) : (u.on s).setHl v = u.on (s.setHl v) := rfl
@[simp] theorem on_setDe (v : Word) : (u.on s).setDe v = u.on (s.setDe v) := rfl
@[simp] theorem on_setFlags (g : Flags) : (u.on s).setFlags g = u.on (s.setFlags g) := rfl
@[simp] theorem on_tick (n : Nat) : (u.on s).tick n = u.on (s.tick n) := rfl
@[simp] theorem on_tickRedundant (x : Option IndexReg) : (u.on s).tickRedundant x = u.on (s.tickRedundant x) := by cases x <;> rfl
@[simp] theorem on_alu (k : AluOp) (v : Byte) : (u.on s).alu k v = u.on (s.alu k v) := rfl
@[simp] theorem on_rotateReg (k : RotKind) (r : Reg8) : (u.on s).rotateReg k r = u.on (s.rotateReg k r) := by
  simp only [State.rotateReg, on_reg8, on_flags, on_setReg8, on_setFlags]
@[simp] theorem on_rotateA (k : RotKind) : (u.on s).rotateA k = u.on (s.rotateA k) := rfl

@[simp] theorem on_memRead (a : Word) : (u.on s).memRead a = ((s.memRead a).1, u.on (s.memRead a).2) := rfl
@[simp] theorem on_memRead16 (a : Word) : (u.on s).memRead16 a = ((s.memRead16 a).1, u.on (s.memRead16 a).2) := rfl
@[simp] theorem on_memWrite (a : Word) (v : Byte) : (u.on s).memWrite a v = u.on (s.memWrite a v) := rfl
@[simp] theorem on_memWrite16 (a v : Word) : (u.on s).memWrite16 a v = u.on (s.memWrite16 a v) := rfl
@[simp] theorem on_portRead (a : Word) : (u.on s).portRead a = ((s.portRead a).1, u.on (s.portRead a).2) := rfl
@[simp] theorem on_modifyAt (g : Byte → Byte) (a : Word) : (u.on s).modifyAt g a = u.on (s.modifyAt g a) := rfl
@[simp] theorem on_testAt (b : Fin 8) (a : Word) (x : Byte) : (u.on s).testAt b a x = u.on (s.testAt b a x) := rfl
@[simp] theorem on_rotateAt (k : RotKind) (a : Word) : (u.on s).rotateAt k a = u.on (s.rotateAt k a) := rfl

@[simp] theorem on_emitBranch (i : Instr) (taken : Bool) (target : Word) : (u.on s).emitBranch i taken target = u.on (s.emitBranch i taken target) := by
  simp only [State.emitBranch_eq]; rfl
@[simp] theorem on_jump (i : Instr) (target : Word) : (u.on s).jump i target = u.on (s.jump i target) := by simp only [State.jump_eq]; rfl
@[simp] theorem on_call (i : Instr) (target : Word) : (u.on s).call i target = u.on (s.call i target) := by simp only [State.call_eq]; rfl
@[simp] theorem on_returnFrom (i : Instr) : (u.on s).returnFrom i = u.on (s.returnFrom i) := by simp only [State.returnFrom_eq]; rfl
@[simp] theorem on_pushFor (o : Origin) (v : Word) : (u.on s).pushFor o v = u.on (s.pushFor o v) := by simp only [State.pushFor_eq]; rfl
@[simp] theorem on_popFor (o : Origin) : (u.on s).popFor o = ((s.popFor o).1, u.on (s.popFor o).2) := by simp only [State.popFor_eq]; rfl
@[simp] theorem on_exchangeTop (i : Instr) (v : Word) : (u.on s).exchangeTop i v = ((s.exchangeTop i v).1, u.on (s.exchangeTop i v).2) := by
  simp only [State.exchangeTop_eq]; rfl
@[simp] theorem on_loadPair (i : Instr) (p : RegPair) (v : Word) : (u.on s).loadPair i p v = u.on (s.loadPair i p v) := by
  simp only [State.loadPair_eq, ← on_setPair]; rfl

@[simp] theorem on_moveBlock (delta : Word) : (u.on s).moveBlock delta = u.on (s.moveBlock delta) := by
  simp only [State.moveBlock, on_memRead, on_memWrite, on_setHl, on_setDe, State.setBc]; rfl
@[simp] theorem on_compareBlock (delta : Word) : (u.on s).compareBlock delta = u.on (s.compareBlock delta) := by
  simp only [State.compareBlock_eq, on_peek, on_hl, on_bc, on_flags]; rfl
@[simp] theorem on_inBlock (delta : Word) (addend : Byte) : (u.on s).inBlock delta addend = u.on (s.inBlock delta addend) := by
  simp only [State.inBlock, on_portRead, on_memWrite, on_setHl, on_bc, on_hl]; rfl
@[simp] theorem on_outBlock (delta : Word) : (u.on s).outBlock delta = u.on (s.outBlock delta) := by
  simp only [State.outBlock, on_memRead, on_hl]; rfl
@[simp] theorem on_repeatBlock (again : Bool) : (u.on s).repeatBlock again = u.on (s.repeatBlock again) := by cases again <;> rfl
@[simp] theorem on_repeatIo (again : Bool) : (u.on s).repeatIo again = u.on (s.repeatIo again) := by cases again <;> rfl

end

/-! ## Operations on an index register that the update leaves alone -/

/-- The update of an index register. -/
def index (u : ReservedUpdate) : IndexReg → Word → Word
  | .ix => u.ix
  | .iy => u.iy

section
variable {u : ReservedUpdate} {xy : IndexReg} (s : State)

@[simp] theorem on_ix (h : u.index .ix = id) : (u.on s).ix = s.ix := congrFun h _
@[simp] theorem on_iy (h : u.index .iy = id) : (u.on s).iy = s.iy := congrFun h _
@[simp] theorem on_index (h : u.index xy = id) : (u.on s).index xy = s.index xy := by cases xy <;> exact congrFun h _
@[simp] theorem on_setIndex (h : u.index xy = id) (v : Word) : (u.on s).setIndex xy v = u.on (s.setIndex xy v) := by
  cases xy
  · simp only [State.setIndex, on, show u.ix = id from h, id]
  · simp only [State.setIndex, on, show u.iy = id from h, id]
@[simp] theorem on_half (h : u.index xy = id) (p : Half) : (u.on s).half xy p = s.half xy p := by cases p <;> simp [State.half, h]
@[simp] theorem on_setHalf (h : u.index xy = id) (p : Half) (v : Byte) : (u.on s).setHalf xy p v = u.on (s.setHalf xy p v) := by
  cases p <;> simp [State.setHalf, h]
@[simp] theorem on_halfReg (h : u.index xy = id) (q : HalfReg) : (u.on s).halfReg xy q = s.halfReg xy q := by
  cases q <;> simp [State.halfReg, h]
@[simp] theorem on_setHalfReg (h : u.index xy = id) (q : HalfReg) (v : Byte) : (u.on s).setHalfReg xy q v = u.on (s.setHalfReg xy q v) := by
  cases q <;> simp only [State.setHalfReg, on_setHalf, h] <;> rfl
@[simp] theorem on_indexPair (h : u.index xy = id) (p : IndexPair) : (u.on s).indexPair xy p = s.indexPair xy p := by
  cases p <;> simp [State.indexPair, h]
@[simp] theorem on_indexAddr (h : u.index xy = id) (d : Byte) : (u.on s).indexAddr xy d = s.indexAddr xy d := by simp [State.indexAddr, h]
@[simp] theorem on_indexed (h : u.index xy = id) (d : Byte) : (u.on s).indexed xy d = u.on (s.indexed xy d) := by
  simp only [State.indexed, on_indexAddr s h]; rfl
@[simp] theorem on_readIndexed (h : u.index xy = id) (d : Byte) :
    (u.on s).readIndexed xy d = ((s.readIndexed xy d).1, u.on (s.readIndexed xy d).2) := by
  simp [State.readIndexed, h]

end

theorem Spares.index {u : ReservedUpdate} {i : Instr} {s : State} {xy : IndexReg} (hu : u.Spares i s) (h : i.indexOf = some xy) :
    u.index xy = id := by
  cases xy
  · exact hu.ix h
  · exact hu.iy h

/-- A conditional instruction: the condition does not see the update, and each branch commutes with it. -/
theorem exists_next_ite {u : ReservedUpdate} {c c' : Prop} [Decidable c] [Decidable c'] {x y x' y' : State}
    (hc : c' ↔ c) (hx : x' = u.on x) (hy : y' = u.on y) :
    ∃ t, (if c then .next x else .next y : Result) = .next t ∧ (if c' then .next x' else .next y' : Result) = .next (u.on t) := by
  subst hx hy
  by_cases h : c
  · exact ⟨x, if_pos h, if_pos (hc.mpr h)⟩
  · exact ⟨y, if_neg h, if_neg (mt hc.mp h)⟩

/-- Every instruction completes, and an update that it spares may be made before it or after it: the instruction neither reads nor writes
what the update changes. -/
theorem exec_on {u : ReservedUpdate} {i : Instr} {s : State} (hu : u.Spares i s) :
    ∃ t, exec i s = .next t ∧ exec i (u.on s) = .next (u.on t) := by
  cases i
  case jrCc cc e => exact exists_next_ite (by simp) (by simp only [on_relative, on_jump]; rfl) (by simp)
  case retCc cc => exact exists_next_ite (by simp) (by simp) (by simp)
  case jpCcNn cc nn => exact exists_next_ite (by simp) (by simp only [State.jump_eq]; rfl) (by simp only [State.emitBranch_eq]; rfl)
  case callCcNn cc nn => exact exists_next_ite (by simp) (by simp) (by simp only [State.emitBranch_eq]; rfl)
  case djnz e => exact exists_next_ite (by simp) (by simp only [State.jump_eq]; rfl) (by simp only [State.emitBranch_eq]; rfl)
  all_goals refine ⟨_, rfl, congrArg Host.Outcome.next ?_⟩
  case exAfAf =>
    obtain ⟨ha, hf⟩ := hu.shadowAf rfl
    simp [on, ha, hf]
  case exx =>
    obtain ⟨hb, hc, hd, he, hh, hl⟩ := hu.shadowRest rfl
    simp [on, hb, hc, hd, he, hh, hl]
  case halt =>
    simp [on, hu.halted rfl]
  case di =>
    simp [on, hu.iff1 (by simp), hu.iff2 (by simp)]
  case ei =>
    simp [on, hu.iff1 (by simp), hu.iff2 (by simp), hu.eiDelay rfl]
  case reti | retn =>
    simp only [State.returnFromInterrupt, on_returnFrom]
    simp [State.tick, on, hu.iff1 (by simp), hu.iff2Read (by simp)]
  case im0 | im1 | im2 =>
    simp [on, hu.mode (by simp)]
  case ldIA =>
    simp [on, hu.vector rfl]
  case ldRA =>
    simp [on, hu.refresh rfl]
  case ldAI =>
    simp only [on_flags]
    simp [on, hu.vectorRead rfl, hu.iff2Read (by simp)]
  case ldAR =>
    simp only [on_flags]
    simp [on, hu.refreshRead rfl, hu.iff2Read (by simp)]
  case addIxPp | ldIxNn | ldMemNnIx | ldIxMemNn | incIx | decIx | popIx | exMemSpIx =>
    have h : u.index .ix = id := hu.index rfl
    simp only [on_ix s h, on_indexPair s h, on_flags, on_setFlags, on_tacts, on_memRead16, on_memWrite16, on_popFor, on_exchangeTop]
    simp only [on, show u.ix = id from h, id]
  case addIyPp | ldIyNn | ldMemNnIy | ldIyMemNn | incIy | decIy | popIy | exMemSpIy =>
    have h : u.index .iy = id := hu.index rfl
    simp only [on_iy s h, on_indexPair s h, on_flags, on_setFlags, on_tacts, on_memRead16, on_memWrite16, on_popFor, on_exchangeTop]
    simp only [on, show u.iy = id from h, id]
  case incP | decP | ldPN | incMemIx | incMemIy | decMemIx | decMemIy | ldMemIxN | ldMemIyN | ldQQ | ldRMemIx | ldRMemIy | ldMemIxR |
      ldMemIyR | addAP | addAMemIx | addAMemIy | adcAP | adcAMemIx | adcAMemIy | subP | subMemIx | subMemIy | sbcAP | sbcAMemIx | sbcAMemIy
      | andP | andMemIx | andMemIy | xorP | xorMemIx | xorMemIy | orP | orMemIx | orMemIy | cpP | cpMemIx | cpMemIy | pushIx | pushIy | jpIx
      | jpIy | ldSpIx | ldSpIy | rlcMemIx | rlcMemIy | rlcMemIxR | rlcMemIyR | rrcMemIx | rrcMemIy | rrcMemIxR | rrcMemIyR | rlMemIx |
      rlMemIy | rlMemIxR | rlMemIyR | rrMemIx | rrMemIy | rrMemIxR | rrMemIyR | slaMemIx | slaMemIy | slaMemIxR | slaMemIyR | sraMemIx |
      sraMemIy | sraMemIxR | sraMemIyR | sllMemIx | sllMemIy | sllMemIxR | sllMemIyR | srlMemIx | srlMemIy | srlMemIxR | srlMemIyR |
      bitBMemIx | bitBMemIy | bitBMemIxZ | bitBMemIyZ | resBMemIx | resBMemIy | resBMemIxR | resBMemIyR | setBMemIx | setBMemIy | setBMemIxR
      | setBMemIyR =>
    simp [hu.index rfl]
  case jpNn =>
    simp only [State.jump_eq]; rfl
  case neg =>
    simp only [State.setFlags, State.tick, on]
  case jr | addHlSs | ldMemBcA | ldMemDeA | ldMemNnHl | ldMemNnA | ldAMemBc | ldAMemDe | ldHlMemNn | ldAMemNn | daa | cpl | outNA | inAN |
      exMemSpHl | inRC | inC | outCR | outC0 | sbcHlSs | adcHlSs | ldMemNnDd | ldDdMemNn | rrd | rld =>
    simp only [on_a, on_bc, on_de, on_hl, on_c, on_e, on_tacts, on_flags, on_pair, on_reg8, on_relative, on_memRead, on_memRead16, on_memWrite,
        on_memWrite16, on_portRead, on_setHl, on_setReg8, on_setFlags, on_jump, on_loadPair, on_exchangeTop]
    rfl
  all_goals simp

end ReservedUpdate

end Sys2Proof.Machine
end

section
/-! PROOFS. Who writes the control state and who reaches the shadow set (O40, O41), from the rule for the reserved parts. -/

namespace Sys2Proof.Machine

namespace ReservedUpdate

theorem exec_on_eq {u : ReservedUpdate} {i : Instr} {s t : State} (h : exec i s = .next t) (hu : u.Spares i s) :
    exec i (u.on s) = .next (u.on t) := by
  obtain ⟨t', ht, hon⟩ := exec_on hu
  cases h.symm.trans ht
  exact hon

/-- An update that changes nothing before an instruction that spares it changes nothing after it. -/
theorem on_exec_of_on_eq {u : ReservedUpdate} {i : Instr} {s t : State} (h : exec i s = .next t) (hu : u.Spares i s) (hs : u.on s = s) : u.on t = t := by
  have e := exec_on_eq h hu
  rw [hs, h] at e
  exact (Host.Outcome.next.inj e).symm

end ReservedUpdate

open ReservedUpdate

section
variable {i : Instr} {s t : State} (h : exec i s = .next t)
include h

theorem exec_keeps_i (hi : i ≠ .ldIA) : t.i = s.i :=
  (congrArg State.i (on_exec_of_on_eq (u := { i := fun _ => s.i }) h { vector := fun e => absurd e hi } rfl)).symm

theorem exec_keeps_r (hi : i ≠ .ldRA) : t.r = s.r :=
  (congrArg State.r (on_exec_of_on_eq (u := { r := fun _ => s.r }) h { refresh := fun e => absurd e hi } rfl)).symm

theorem exec_keeps_im (h0 : ∀ x5 x3, i ≠ .im0 x5 x3) (h1 : ∀ x5, i ≠ .im1 x5) (h2 : ∀ x5, i ≠ .im2 x5) : t.im = s.im :=
  (congrArg State.im (on_exec_of_on_eq (u := { im := fun _ => s.im }) h { mode := by simp [h0, h1, h2] } rfl)).symm

theorem exec_keeps_iff1 (hei : i ≠ .ei) (hdi : i ≠ .di) (hreti : i ≠ .reti) (hretn : ∀ y, i ≠ .retn y) : t.iff1 = s.iff1 :=
  (congrArg State.iff1 (on_exec_of_on_eq (u := { iff1 := fun _ => s.iff1 }) h { iff1 := by simp [hei, hdi, hreti, hretn] } rfl)).symm

theorem exec_keeps_iff2 (hei : i ≠ .ei) (hdi : i ≠ .di) : t.iff2 = s.iff2 :=
  (congrArg State.iff2 (on_exec_of_on_eq (u := { iff2 := fun _ => s.iff2 }) h { iff2 := by simp [hei, hdi] } rfl)).symm

theorem exec_keeps_halted (hi : i ≠ .halt) : t.halted = s.halted :=
  (congrArg State.halted (on_exec_of_on_eq (u := { halted := fun _ => s.halted }) h { halted := fun e => absurd e hi } rfl)).symm

theorem exec_keeps_eiDelay (hi : i ≠ .ei) : t.eiDelay = s.eiDelay :=
  (congrArg State.eiDelay (on_exec_of_on_eq (u := { eiDelay := fun _ => s.eiDelay }) h { eiDelay := fun e => absurd e hi } rfl)).symm

/-- Requests are the host's and the acceptances' alone. -/
theorem exec_keeps_requests : t.intPending = s.intPending ∧ t.intBus = s.intBus ∧ t.nmiPending = s.nmiPending := by
  have e := on_exec_of_on_eq
    (u := { intPending := fun _ => s.intPending, intBus := fun _ => s.intBus, nmiPending := fun _ => s.nmiPending }) h {} rfl
  exact ⟨(congrArg State.intPending e).symm, (congrArg State.intBus e).symm, (congrArg State.nmiPending e).symm⟩

/-- Once halted, an instruction leaves the machine halted. -/
theorem exec_stays_halted (hs : s.halted = true) : t.halted = true := by
  by_cases hi : i = .halt
  · subst hi; cases h; rfl
  · rw [exec_keeps_halted h hi, hs]

end

/-- Settles O40, part by part. -/
theorem controlStateWriters : Obligations.ControlStateWriters := fun _ _ _ h =>
  ⟨exec_keeps_i h, exec_keeps_r h, exec_keeps_im h, exec_keeps_iff1 h, exec_keeps_iff2 h, exec_keeps_halted h, exec_stays_halted h,
    exec_keeps_eiDelay h, exec_keeps_requests h⟩

/-- Settles O41: the shadow set is a reserved part, and the two exchanges compute. -/
theorem shadowSetUse : Obligations.ShadowSetUse := by
  refine ⟨fun i s t h hi => ?af, fun i s t h hi => ?rest, fun s => ⟨_, rfl, rfl, rfl, rfl, rfl⟩,
    fun s => ⟨_, rfl, rfl, rfl, rfl, rfl, rfl, rfl, rfl, rfl, rfl, rfl, rfl, rfl⟩⟩
  case af =>
    have e := on_exec_of_on_eq (u := { a' := fun _ => s.a', f' := fun _ => s.f' }) h { shadowAf := fun e => absurd e hi } rfl
    exact ⟨(congrArg State.a' e).symm, (congrArg State.f' e).symm, fun v w =>
      exec_on_eq (u := { a' := fun _ => v, f' := fun _ => w }) h { shadowAf := fun e => absurd e hi }⟩
  case rest =>
    have e := on_exec_of_on_eq
      (u := { b' := fun _ => s.b', c' := fun _ => s.c', d' := fun _ => s.d', e' := fun _ => s.e', h' := fun _ => s.h', l' := fun _ => s.l' })
      h { shadowRest := fun e => absurd e hi } rfl
    exact ⟨(congrArg State.b' e).symm, (congrArg State.c' e).symm, (congrArg State.d' e).symm, (congrArg State.e' e).symm,
      (congrArg State.h' e).symm, (congrArg State.l' e).symm, fun u v w x y z =>
      exec_on_eq (u := { b' := fun _ => u, c' := fun _ => v, d' := fun _ => w, e' := fun _ => x, h' := fun _ => y, l' := fun _ => z })
        h { shadowRest := fun e => absurd e hi }⟩

end Sys2Proof.Machine
end

section
/-! PROOFS. The decoder answers rows for prefixes and then one well-formed instruction (30_encoding.md R102, R111). -/

namespace Sys2Proof

/-- The four prefixes by their fields (30_encoding.md R103). -/
theorem isPrefixByte_of_fields {op : Byte} (hx : opX op = 3) :
    (opZ op = 3 → opY op = 1 → isPrefixByte op = true) ∧
    (opZ op = 5 → opY op = 3 ∨ opY op = 5 ∨ opY op = 7 → isPrefixByte op = true) ∧
    (opZ op = 5 → opQ op = true → opP op ≠ 0 → isPrefixByte op = true) := by
  revert op; decide

theorem wellFormed_decodeBase0 (op b1 b2 : Byte) : (decodeBase0 op b1 b2).1.wellFormed = true := by
  dsimp only [decodeBase0]
  repeat' split
  all_goals rfl

theorem wellFormed_decodeBase3 {op : Byte} (hx : opX op = 3) (h : isPrefixByte op = false) (b1 b2 : Byte) :
    (decodeBase3 op b1 b2).1.wellFormed = true := by
  obtain ⟨hcb, -, hpq⟩ := isPrefixByte_of_fields hx
  dsimp only [decodeBase3, aluN]
  repeat' split
  any_goals rfl
  all_goals simp_all

theorem wellFormed_decodeBase {op : Byte} (h : isPrefixByte op = false) (b1 b2 : Byte) : (decodeBase op b1 b2).1.wellFormed = true := by
  unfold decodeBase
  split
  · exact wellFormed_decodeBase0 op b1 b2
  · split <;> rfl
  · unfold aluR aluMemHl; repeat' split
    all_goals rfl
  · next hx => exact wellFormed_decodeBase3 hx h b1 b2

theorem wellFormed_decodeCB (op : Byte) : (decodeCB op).wellFormed = true := by
  unfold decodeCB rotR rotMemHl
  repeat' split
  all_goals rfl

theorem wellFormed_decodeXYCB (xy : IndexReg) (d op : Byte) : (decodeXYCB xy d op).wellFormed = true := by
  dsimp only [decodeXYCB, rotMemXY, rotMemXYR]
  repeat' split
  all_goals cases xy <;> rfl

theorem wellFormed_decodeED (op b1 b2 : Byte) : (decodeED op b1 b2).1.wellFormed = true := by
  have cells : ∀ op : Byte, opX op = 1 → opZ op = 7 → opY op = 6 ∨ opY op = 7 → edUndefined op = true := by decide
  have block : ∀ op : Byte, opX op = 2 → (decodeED2 op).wellFormed = true := by decide
  have outside : ∀ op : Byte, opX op ≠ 1 → opX op ≠ 2 → edUndefined op = true := by decide
  unfold decodeED
  split
  · next hx =>
    dsimp only [decodeED1]
    repeat' split
    any_goals rfl
    all_goals simp_all [Instr.wellFormed]
  · next hx => exact block op hx
  · next h1 h2 => exact outside op h1 h2

theorem wellFormed_decodeXY {xy : IndexReg} {op b1 b2 : Byte} {entry : Instr × Nat} (h : isPrefixByte op = false)
    (he : decodeXY xy op b1 b2 = some entry) : entry.1.wellFormed = true := by
  revert he
  unfold decodeXY
  split
  · dsimp only [decodeXY0]
    repeat' split
    all_goals rintro ⟨⟩
    all_goals cases xy <;> rfl
  · unfold decodeXY1
    repeat' split
    all_goals rintro ⟨⟩
    any_goals assumption
    all_goals cases xy <;> rfl
  · unfold aluMemXY aluP
    repeat' split
    all_goals rintro ⟨⟩
    all_goals cases xy <;> rfl
  · next hx =>
    obtain ⟨hcb, hed, -⟩ := isPrefixByte_of_fields hx
    unfold decodeXY3
    split
    all_goals rintro ⟨⟩
    any_goals cases xy <;> rfl
    all_goals simp_all

/-- The rows that stand for prefixes, redundant ones included: the beginning of an instruction (30_encoding.md R102, R111). -/
def Instr.isRow : Instr → Bool
  | .prefixCB _ | .prefixDD _ | .prefixED _ | .prefixFD _ | .baseRedundant _ => true
  | _ => false

/-- What the decoder answers: rows for prefixes, no more of them than bytes, then one whole instruction. -/
structure Decoded.Sound (bytes : List Byte) (d : Decoded) : Prop where
  rows : ∀ u ∈ d.prefixes, u.isRow = true
  instr : d.instr.wellFormed = true
  few : d.prefixes.length ≤ bytes.length
  opcodes : d.m1 ≤ d.len

theorem sound_finish {units : List Instr} {opcodes : Nat} {rest : List Byte} {entry : Instr × Nat} {d : Decoded}
    (h : finish units opcodes rest entry = .ok d) (hu : ∀ u ∈ units, u.isRow = true) (hi : entry.1.wellFormed = true)
    {bytes : List Byte} (hn : units.length ≤ bytes.length) : d.Sound bytes := by
  unfold finish at h
  split at h
  · cases h; exact ⟨hu, hi, hn, Nat.le_add_right _ _⟩
  · cases h

theorem sound_decodeAfterED {before : Option IndexReg} {rest : List Byte} {d : Decoded} (h : decodeAfterED before rest = .ok d) (b : Byte) :
    d.Sound (b :: rest) := by
  cases rest with
  | nil => cases h
  | cons op rest => exact sound_finish h (by simp [Instr.isRow]) (wellFormed_decodeED _ _ _) (by simp)

theorem sound_decodeAfterCB {before : Option IndexReg} {rest : List Byte} {d : Decoded} (h : decodeAfterCB before rest = .ok d) (b : Byte) :
    d.Sound (b :: rest) := by
  unfold decodeAfterCB at h
  split at h
  · cases h; exact ⟨by simp [Instr.isRow], wellFormed_decodeCB _, by simp, by simp⟩
  · cases h; exact ⟨by simp [Instr.isRow], wellFormed_decodeXYCB _ _ _, by simp, by simp⟩
  · cases h

theorem sound_decodeOpcode {before : Option IndexReg} {op : Byte} {rest : List Byte} {d : Decoded} (hop : isPrefixByte op = false)
    (h : decodeOpcode before op rest = .ok d) : d.Sound (op :: rest) := by
  dsimp only [decodeOpcode] at h
  split at h
  · exact sound_finish h (by simp) (wellFormed_decodeBase hop _ _) (by simp)
  · split at h
    · next he => exact sound_finish h (by simp) (wellFormed_decodeXY hop he) (by simp)
    · exact sound_finish h (by simp [Instr.isRow]) (wellFormed_decodeBase hop _ _) (by simp)

theorem Decoded.Sound.after {bytes : List Byte} {d : Decoded} (h : d.Sound bytes) {u : Instr} (hu : u.isRow = true) (b : Byte) :
    (Decoded.after u d).Sound (b :: bytes) :=
  ⟨by simpa [Decoded.after, hu] using h.rows, h.instr, Nat.succ_le_succ h.few, Nat.succ_le_succ h.opcodes⟩

theorem sound_decodeFrom {before : Option IndexReg} {bytes : List Byte} {d : Decoded} (h : decodeFrom before bytes = .ok d) : d.Sound bytes := by
  induction bytes generalizing before d with
  | nil => cases h
  | cons b rest ih =>
    have prefixed {u : Instr} {next : IndexReg} (hu : u.isRow = true)
        (h : (decodeFrom (some next) rest).map (Decoded.after u) = .ok d) : d.Sound (b :: rest) := by
      cases hd : decodeFrom (some next) rest with
      | error => rw [hd] at h; cases h
      | ok d' => rw [hd] at h; cases h; exact (ih hd).after hu b
    unfold decodeFrom at h
    split at h
    · exact prefixed rfl h
    split at h
    · exact prefixed rfl h
    split at h
    · exact sound_decodeAfterED h b
    split at h
    · exact sound_decodeAfterCB h b
    · exact sound_decodeOpcode (by simp_all [isPrefixByte]) h

theorem sound_decode {bytes : List Byte} {d : Decoded} (h : decode bytes = .ok d) : d.Sound bytes := sound_decodeFrom h

end Sys2Proof
end

section
/-! PROOFS. The frame of every instruction: flags, stack pointer, memory form, time, ports and host calls. O39, O43 and O44 are parts of it. -/

namespace Sys2Proof.Machine
open ReservedUpdate

/-! ## A write through a register table, as one update of the record -/

theorem State.setReg8_eq (s : State) (r : Reg8) (v : Byte) : s.setReg8 r v =
    { s with
      a := if r = .a then v else s.a, b := if r = .b then v else s.b, c := if r = .c then v else s.c, d := if r = .d then v else s.d,
      e := if r = .e then v else s.e, h := if r = .h then v else s.h, l := if r = .l then v else s.l } := by
  cases r <;> rfl

theorem State.setIndex_eq (s : State) (xy : IndexReg) (v : Word) : s.setIndex xy v =
    { s with ix := if xy = .ix then v else s.ix, iy := if xy = .iy then v else s.iy } := by
  cases xy <;> rfl

theorem State.setHalf_eq (s : State) (xy : IndexReg) (p : Half) (v : Byte) : s.setHalf xy p v =
    s.setIndex xy (if p = .high then word v (lo (s.index xy)) else word (hi (s.index xy)) v) := by
  cases p <;> rfl

theorem State.setHalfReg_eq (s : State) (xy : IndexReg) (q : HalfReg) (v : Byte) : s.setHalfReg xy q v =
    { s with
      a := if q = .a then v else s.a, b := if q = .b then v else s.b, c := if q = .c then v else s.c, d := if q = .d then v else s.d,
      e := if q = .e then v else s.e, ix := if q = .xyh then (s.setHalf xy .high v).ix else if q = .xyl then (s.setHalf xy .low v).ix else s.ix,
      iy := if q = .xyh then (s.setHalf xy .high v).iy else if q = .xyl then (s.setHalf xy .low v).iy else s.iy } := by
  cases q <;> cases xy <;> rfl

/-! ## The frame -/

/-- How many T-states one instruction may take (10_state.md R35, the shortest and the longest of the tables). -/
def IsDuration (n : Nat) : Prop := 4 ≤ n ∧ n ≤ 23

theorem isDuration_of_eq {before after n : Nat} (h : after = before + n) (hn : 4 ≤ n ∧ n ≤ 23) : IsDuration (after - before) := by
  rw [h, Nat.add_sub_cancel_left]; exact hn

/-- The address of a write call. -/
def BusEvent.written : BusEvent → Option Word
  | .writeByte a _ => some a
  | _ => none

/-- A port call, in or out. -/
def BusEvent.isPort : BusEvent → Bool
  | .readPort _ _ | .writePort _ _ => true
  | _ => false

/-- What the calls of an instruction have in common: at most four, a write at each stored address (in the order of `storedTo` or the other),
a port call exactly for the port group. -/
structure Calls (i : Instr) (s : State) (new : List BusEvent) : Prop where
  few : new.length.ble 4 = true
  writes : new.filterMap BusEvent.written = storedTo i s ∨ new.filterMap BusEvent.written = (storedTo i s).reverse
  ports : (new.filter BusEvent.isPort).length = bif i.usesPort then 1 else 0

/-- What an instruction leaves, how long it takes and what it calls (10_state.md R25, R35, R43, R44). -/
structure Frame (i : Instr) (s t : State) : Prop where
  flags : i.writesF = false → t.f = s.f
  stack : i.movesSp = false → t.sp = s.sp
  memory : s.mem.wf = true → t.mem.wf = true
  time : i.isRow = false → IsDuration (t.tacts - s.tacts)
  ports : i.usesPort = false → t.portInputs = s.portInputs ∧ t.portReads = s.portReads
  calls : ∃ new, t.bus = new ++ s.bus ∧ Calls i s new

/-- Every instruction completes within its frame: the effect of each operation is written as one record update, and then each field is read off;
the instructions are grouped by the calls they make. -/
theorem exec_frame (i : Instr) (s : State) : ∃ t, exec i s = .next t ∧ Frame i s t := by
  cases i
  case' popQq qq => cases qq
  case' ldDdNn dd _ | ldDdMemNn dd _ | incSs dd | decSs dd => cases dd
  case' prefixDD before | prefixED before | prefixFD before => cases before
  case' jrCc | retCc | jpCcNn | callCcNn | djnz =>
    refine ⟨_, (apply_ite Host.Outcome.next _ _ _).symm, ?_⟩
    split
  any_goals refine ⟨_, rfl, ?_⟩
  any_goals simp only [State.setReg8_eq, State.setHalf_eq, State.setIndex_eq, State.setHalfReg_eq, State.setHl, State.setDe, State.setFlags,
    State.alu, State.indexed, State.tick, State.memRead, State.memRead16_eq, State.readIndexed, State.memWrite, State.memWrite16_eq,
    State.portRead, State.portWrite, State.modifyAt_eq, State.testAt_eq, State.rotateAt_eq, State.rotateReg, State.rotateA,
    State.loadPair_eq, State.pushFor_eq, State.popFor_eq, State.exchangeTop_eq, State.emitBranch_eq, State.jump_eq, State.call_eq,
    State.returnFrom_eq, State.returnFromInterrupt_eq, State.moveBlock_eq, State.compareBlock_eq, State.inBlock_eq, State.outBlock_eq,
    State.repeatBlock_eq, State.repeatIo_eq]
  all_goals refine
    ⟨fun h => by cases h <;> rfl, fun h => by cases h <;> rfl, fun h => by simp [Memory.wf_store, h],
      fun h => by cases h <;> exact isDuration_of_eq rfl (by (repeat' split) <;> decide), fun h => by cases h <;> exact ⟨rfl, rfl⟩, ?_⟩
  case addAMemHl | adcAMemHl | subMemHl | sbcAMemHl | andMemHl | xorMemHl | orMemHl | cpMemHl | ldRMemHl | ldAMemBc | ldAMemDe | ldAMemNn |
      addAMemIx | addAMemIy | adcAMemIx | adcAMemIy | subMemIx | subMemIy | sbcAMemIx | sbcAMemIy | andMemIx | andMemIy | xorMemIx |
      xorMemIy | orMemIx | orMemIy | cpMemIx | cpMemIy | ldRMemIx | ldRMemIy | bitBMemHl | bitBMemIx | bitBMemIy | bitBMemIxZ | bitBMemIyZ |
      cpi | cpd | cpir | cpdr | ldMemBcA | ldMemDeA | ldMemNnA | ldMemHlN | ldMemHlR | ldMemIxN | ldMemIyN | ldMemIxR | ldMemIyR | outNA |
      inAN | inRC | inC | outCR | outC0 =>
    exact ⟨[_], rfl, rfl, .inl rfl, rfl⟩
  case incMemHl | decMemHl | incMemIx | incMemIy | decMemIx | decMemIy | rlcMemHl | rrcMemHl | rlMemHl | rrMemHl | slaMemHl | sraMemHl |
      sllMemHl | srlMemHl | rlcMemIx | rlcMemIy | rlcMemIxR | rlcMemIyR | rrcMemIx | rrcMemIy | rrcMemIxR | rrcMemIyR | rlMemIx | rlMemIy |
      rlMemIxR | rlMemIyR | rrMemIx | rrMemIy | rrMemIxR | rrMemIyR | slaMemIx | slaMemIy | slaMemIxR | slaMemIyR | sraMemIx | sraMemIy |
      sraMemIxR | sraMemIyR | sllMemIx | sllMemIy | sllMemIxR | sllMemIyR | srlMemIx | srlMemIy | srlMemIxR | srlMemIyR | resBMemHl |
      resBMemIx | resBMemIy | resBMemIxR | resBMemIyR | setBMemHl | setBMemIx | setBMemIy | setBMemIxR | setBMemIyR | rrd | rld | ldi | ldd
      | ldir | lddr | ini | ind | inir | indr | outi | outd | otir | otdr | popQq.bc | popQq.de | popQq.hl | popQq.af | popIx | popIy | ret
      | retCc.isTrue | reti | retn | ldHlMemNn | ldDdMemNn.bc | ldDdMemNn.de | ldDdMemNn.hl | ldDdMemNn.sp | ldIxMemNn | ldIyMemNn =>
    exact ⟨[_, _], rfl, rfl, .inl rfl, rfl⟩
  case pushQq | pushIx | pushIy | rst | callNn | ldMemNnHl | ldMemNnDd | ldMemNnIx | ldMemNnIy =>
    exact ⟨[_, _], rfl, rfl, .inr rfl, rfl⟩
  case exMemSpHl | exMemSpIx | exMemSpIy =>
    exact ⟨[_, _, _, _], rfl, rfl, .inl rfl, rfl⟩
  case callCcNn.isTrue cc nn h =>
    have e : storedTo (.callCcNn cc nn) s = [s.sp - 1, s.sp - 2] := if_pos h
    exact ⟨[_, _], rfl, rfl, .inr (by rw [e]; rfl), rfl⟩
  case callCcNn.isFalse h =>
    exact ⟨[], rfl, rfl, .inl (if_neg h).symm, rfl⟩
  all_goals exact ⟨[], rfl, rfl, .inl rfl, rfl⟩

theorem frame_of_exec {i : Instr} {s t : State} (h : exec i s = .next t) : Frame i s t := by
  obtain ⟨t', ht, frame⟩ := exec_frame i s
  cases h.symm.trans ht
  exact frame

theorem BusEvent.mem_filterMap_written {a : Word} {events : List BusEvent} :
    a ∈ events.filterMap BusEvent.written ↔ ∃ v, .writeByte a v ∈ events := by
  rw [List.mem_filterMap]
  constructor
  · rintro ⟨e, he, hw⟩
    cases e <;> cases hw
    exact ⟨_, he⟩
  · rintro ⟨v, he⟩
    exact ⟨_, he, rfl⟩

/-- Settles O39, from the calls that the frame allows. -/
theorem busTraffic : Obligations.BusTraffic := by
  intro i s t h
  obtain ⟨new, hbus, calls⟩ := (frame_of_exec h).calls
  refine ⟨new, hbus, Nat.le_of_ble_eq_true calls.few, fun a => ?writes, ?ports, (frame_of_exec h).ports⟩
  case writes =>
    rw [← BusEvent.mem_filterMap_written]
    obtain e | e := calls.writes <;> rw [e]
    exact List.mem_reverse
  case ports =>
    rw [← Bool.cond_eq_ite]
    exact calls.ports

/-- Settles O43, from the frame. -/
theorem flagsKept : Obligations.FlagsKept := fun _ _ _ h => (frame_of_exec h).flags

/-- Settles O44: IX and IY are reserved parts, SP is a part of the frame. -/
theorem indexAndStackPointerUse : Obligations.IndexAndStackPointerUse := by
  refine fun i s t h => ⟨fun hi => ?ix, fun hi => ?iy, (frame_of_exec h).stack⟩
  case ix =>
    exact ⟨(congrArg State.ix (on_exec_of_on_eq (u := { ix := fun _ => s.ix }) h { ix := fun e => absurd e hi } rfl)).symm,
      fun v => exec_on_eq (u := { ix := fun _ => v }) h { ix := fun e => absurd e hi }⟩
  case iy =>
    exact ⟨(congrArg State.iy (on_exec_of_on_eq (u := { iy := fun _ => s.iy }) h { iy := fun e => absurd e hi } rfl)).symm,
      fun v => exec_on_eq (u := { iy := fun _ => v }) h { iy := fun e => absurd e hi }⟩

end Sys2Proof.Machine
end

section
/-! PROOFS. What a step is made of: the rows and the instruction of a program step, and the state after an acceptance. -/

namespace Sys2Proof.Machine

/-! ## Rows and units -/

/-- A row for prefixes costs at most 4 T-states and does nothing else (30_encoding.md R111). -/
theorem exec_row {u : Instr} (hu : u.isRow = true) (s : State) : ∃ n ≤ 4, exec u s = .next (s.tick n) := by
  cases u
  case prefixCB => exact ⟨0, by decide, rfl⟩
  case prefixDD before | prefixED before | prefixFD before =>
    cases before
    · exact ⟨0, by decide, rfl⟩
    · exact ⟨4, by decide, rfl⟩
  case baseRedundant => exact ⟨4, by decide, rfl⟩
  all_goals cases hu

theorem State.tick_tick (s : State) (m n : Nat) : (s.tick m).tick n = s.tick (m + n) := by simp only [State.tick, Nat.add_assoc]

theorem runUnits_rows {us : List Instr} (hus : ∀ u ∈ us, u.isRow = true) (s : State) :
    ∃ n ≤ 4 * us.length, runUnits us s = .next (s.tick n) := by
  induction us generalizing s with
  | nil => exact ⟨0, by simp, rfl⟩
  | cons u us ih =>
    obtain ⟨m, hm, hu⟩ := exec_row (hus u (by simp)) s
    obtain ⟨n, hn, hrest⟩ := ih (fun v hv => hus v (by simp [hv])) (s.tick m)
    refine ⟨m + n, by simp; omega, ?_⟩
    simp only [runUnits, hu, hrest, State.tick_tick]

theorem prefixRun_le (s : State) (n : Nat) (a : Word) : s.prefixRun n a ≤ n := by
  induction n generalizing s a with
  | zero => exact Nat.le_refl 0
  | succ n ih => unfold State.prefixRun; split <;> simp [ih]

/-- Everything the step of an instruction does: its fetches, then at most `4 * 65540` T-states for the rows of prefixes, then one whole instruction. -/
theorem executeInstruction_next {s t : State} (h : s.executeInstruction = .next t) :
    ∃ (d : Decoded) (n : Nat), decode s.window = .ok d ∧ d.instr.wellFormed = true ∧ n ≤ 4 * 65540 ∧
      exec d.instr ((s.fetched d.len d.m1).tick n) = .next t := by
  unfold State.executeInstruction at h
  split at h
  · cases h
  split at h
  · next d hd =>
    have sound := sound_decode hd
    obtain ⟨n, hn, hrows⟩ := runUnits_rows sound.rows (s.fetched d.len d.m1)
    rw [State.fetch_eq s sound.opcodes, Result.runUnits_append _ _ _ _ hrows, runUnits_singleton] at h
    have hlen : s.window.length ≤ 65540 := by
      simpa [State.window, State.bytesAt_length, Config.prefixFuel] using prefixRun_le s Config.prefixFuel s.pc
    exact ⟨d, n, hd, sound.instr, hn.trans (Nat.mul_le_mul_left 4 (sound.few.trans hlen)), h⟩
  · cases h

/-! ## Acceptances -/

/-- The state after an acceptance: PC pushed, the target in PC and WZ, and the calls that found the target (60_exceptions.md R473, R477). -/
def State.accepted (s : State) (o : Origin) (reads : List BusEvent) (target : Word) (tStates : Nat) : State :=
  { s with
    halted := false, r := countR s.r, iff1 := false, sp := s.sp - 2,
    mem := (s.mem.store s.memMap (s.sp - 1) (hi s.pc)).store s.memMap (s.sp - 2) (lo s.pc),
    bus := reads ++ .writeByte (s.sp - 2) (lo s.pc) :: .writeByte (s.sp - 1) (hi s.pc) :: s.bus,
    pc := target, wz := target, tacts := s.tacts + tStates,
    stackLog := ({ s with opAddr := s.pc, opTacts := s.tacts } : State).stackLogWith o (.push s.pc) (s.sp - 2),
    opAddr := s.pc, opTacts := s.tacts }

theorem State.acceptNmi_eq (s : State) : s.acceptNmi =
    { s.accepted .nmi [] Config.nmiVector 11 with nmiPending := false, eiDelay := false, iff2 := s.iff1 } := by
  simp only [State.acceptNmi, State.enterAt, State.emitContent_eq, State.push16_eq]; rfl

/-- The bytes that the two reads of a mode 2 acceptance return, low byte first; the calls are made after the push (60_exceptions.md R476). -/
def State.vectorReads (s : State) : Byte × Byte :=
  let pushed := s.accepted .int [] 0 0
  (pushed.peek (word s.i s.intBus), pushed.peekNext (word s.i s.intBus) (word s.i s.intBus + 1))

theorem State.enterInt_latch_eq (s : State) : s.latch.enterInt =
    { s.accepted .int [] s.pc 0 with wz := s.wz, stackLog := s.stackLog, intPending := false, iff2 := false } := by
  simp only [State.enterInt, State.push16_eq]; rfl

section
variable {s : State}

theorem State.acceptInt_im0 (h : s.im = .im0) : s.acceptInt =
    if isRst s.intBus then
      .next { s.accepted .int [] (word 0 (s.intBus &&& 0x38)) 13 with intPending := false, iff2 := false }
    else .refused .im0Response := by
  simp only [State.acceptInt, h, State.enterInt_latch_eq, State.enterAt, State.emitContent_eq]; rfl

theorem State.acceptInt_im1 (h : s.im = .im1) : s.acceptInt =
    .next { s.accepted .int [] Config.im1Vector 13 with intPending := false, iff2 := false } := by
  simp only [State.acceptInt, h, State.enterInt_latch_eq, State.enterAt, State.emitContent_eq]; rfl

theorem State.acceptInt_im2 (h : s.im = .im2) : s.acceptInt = .next
    { s.accepted .int
        [.readByte (word s.i s.intBus + 1) s.vectorReads.2, .readByte (word s.i s.intBus) s.vectorReads.1]
        (word s.vectorReads.2 s.vectorReads.1) 19 with
      intPending := false, iff2 := false } := by
  simp only [State.acceptInt, h, State.enterInt_latch_eq, State.enterAt, State.emitContent_eq, State.memRead16_eq]; rfl

/-- An answered acceptance of a maskable interrupt, whatever its mode. -/
theorem State.acceptInt_next {t : State} (h : s.acceptInt = .next t) : ∃ (reads : List BusEvent) (target : Word) (n : Nat),
    (n = 13 ∨ n = 19) ∧ t = { s.accepted .int reads target n with intPending := false, iff2 := false } := by
  cases him : s.im with
  | im0 =>
    rw [State.acceptInt_im0 him] at h
    split at h
    · cases h; exact ⟨_, _, _, .inl rfl, rfl⟩
    · cases h
  | im1 => cases (State.acceptInt_im1 him).symm.trans h; exact ⟨_, _, _, .inl rfl, rfl⟩
  | im2 => cases (State.acceptInt_im2 him).symm.trans h; exact ⟨_, _, _, .inr rfl, rfl⟩

end

theorem State.accepted_wf {s : State} (hs : s.mem.wf = true) (o : Origin) (reads : List BusEvent) (target : Word) (n : Nat) :
    (s.accepted o reads target n).mem.wf = true := Memory.wf_store (Memory.wf_store hs _ _ _) _ _ _

end Sys2Proof.Machine
end

section
/-! PROOFS. What every step keeps, how long it takes, and who uses I (O54, O53, O42). -/

namespace Sys2Proof.Machine
open ReservedUpdate

/-! ## Every step keeps the invariant (O54) -/

/-- From a running state without EI delay, an instruction leaves a state that meets the invariant: only `EI` sets the delay, and it enables
interrupts (10_state.md R31, R32, R37). -/
theorem exec_inv {i : Instr} {s t : State} (hs : s.Inv) (hdelay : s.eiDelay = false) (hrun : s.halted = false) (h : exec i s = .next t) : t.Inv := by
  have memory := (frame_of_exec h).memory hs.memory
  by_cases hei : i = .ei
  · subst hei; cases h; exact ⟨memory, fun _ => rfl, fun _ => rfl, fun _ => hrun⟩
  have delay : t.eiDelay = false := (exec_keeps_eiDelay h hei).trans hdelay
  refine ⟨memory, ?_, by simp [delay], by simp [delay]⟩
  by_cases hdi : i = .di
  · subst hdi; cases h; exact fun e => e
  have iff2 := exec_keeps_iff2 h hei hdi
  by_cases hret : i = .reti ∨ ∃ y, i = .retn y
  · obtain rfl | ⟨y, rfl⟩ := hret <;> cases h <;> simp [State.returnFromInterrupt_eq, State.returnFrom_eq]
  · rw [exec_keeps_iff1 h hei hdi (fun e => hret (.inl e)) (fun y e => hret (.inr ⟨y, e⟩)), iff2]
    exact hs.enables

/-- Settles O54, by the four kinds of step. -/
theorem invariantStep : Obligations.InvariantStep := by
  intro s t hs h
  rcases step_cases s with ⟨-, e⟩ | ⟨hint, e⟩ | ⟨-, -, e⟩ | ⟨⟨-, hrun⟩, e⟩ <;> rw [e] at h
  · cases h
    rw [State.acceptNmi_eq]
    exact ⟨State.accepted_wf hs.memory .nmi [] Config.nmiVector 11, fun e => Bool.noConfusion e, fun e => Bool.noConfusion e, fun e => Bool.noConfusion e⟩
  · obtain ⟨reads, target, n, -, rfl⟩ := State.acceptInt_next h
    exact ⟨State.accepted_wf hs.memory .int reads target n, fun e => Bool.noConfusion e,
      fun e => absurd (hint.2.2.2.symm.trans e) Bool.false_ne_true, fun _ => rfl⟩
  · cases h
    exact ⟨hs.memory, hs.enables, fun e => Bool.noConfusion e, fun e => Bool.noConfusion e⟩
  · obtain ⟨d, n, -, -, -, hexec⟩ := executeInstruction_next h
    have ready : ((s.fetched d.len d.m1).tick n).Inv := ⟨hs.memory, hs.enables, fun e => Bool.noConfusion e, fun e => Bool.noConfusion e⟩
    exact exec_inv ready rfl hrun hexec

/-! ## How long a step takes, and bit 7 of R (O53) -/

/-- 10_state.md R30: counting keeps bit 7. -/
theorem getLsbD_seven_countR (r x : Byte) : ((r &&& 0x80) ||| (x &&& 0x7F)).getLsbD 7 = r.getLsbD 7 := by simp

theorem isRow_of_wellFormed {i : Instr} (hi : i.wellFormed = true) : i.isRow = false := by
  cases i
  case prefixCB | prefixDD | prefixED | prefixFD | baseRedundant => cases hi
  all_goals rfl

/-- How long a step takes: an acceptance, a halted cycle, or rows for prefixes and one instruction (10_state.md R35). -/
theorem step_tacts {s t : State} (h : step s = .next t) : s.tacts + 4 ≤ t.tacts ∧ t.tacts < s.tacts + 263000 := by
  rcases step_cases s with ⟨-, e⟩ | ⟨-, e⟩ | ⟨-, -, e⟩ | ⟨-, e⟩ <;> rw [e] at h
  · cases h
    rw [State.acceptNmi_eq]
    simp [State.accepted]
  · obtain ⟨reads, target, n, rfl | rfl, rfl⟩ := State.acceptInt_next h <;> simp [State.accepted]
  · cases h
    simp [State.haltedCycle]
  · obtain ⟨d, n, -, hwf, hn, hexec⟩ := executeInstruction_next h
    obtain ⟨hlow, hhigh⟩ := (frame_of_exec hexec).time (isRow_of_wellFormed hwf)
    have start : ((s.fetched d.len d.m1).tick n).tacts = s.tacts + n := rfl
    omega

/-- Settles O53: the time by the kind of step; R is written by counting alone, except by `LD R,A`. -/
theorem stepTakesTime : Obligations.StepTakesTime := by
  intro s t h
  obtain ⟨hlow, hhigh⟩ := step_tacts h
  refine ⟨hlow, hhigh, ?exact, ?other, ?instruction⟩
  case exact =>
    rw [tactsConsumed, BitVec.toNat_ofNat, Nat.mod_eq_of_lt (by omega)]
  case other =>
    intro hidle
    rcases step_cases s with ⟨-, e⟩ | ⟨-, e⟩ | ⟨-, -, e⟩ | ⟨hrun, -⟩
    · cases e.symm.trans h
      rw [State.acceptNmi_eq]; exact getLsbD_seven_countR _ _
    · obtain ⟨reads, target, n, -, rfl⟩ := State.acceptInt_next (e.symm.trans h)
      exact getLsbD_seven_countR _ _
    · cases e.symm.trans h
      exact getLsbD_seven_countR _ _
    · exact absurd hrun hidle
  case instruction =>
    intro d hrun hd hi
    obtain ⟨d', n, hd', -, -, hexec⟩ := executeInstruction_next ((step_of_runs hrun).symm.trans h)
    cases hd.symm.trans hd'
    rw [exec_keeps_r hexec hi]
    exact getLsbD_seven_countR _ _

/-! ## Who reads and writes I (O42) -/

theorem IntMode.im0_or_im1 {m : IntMode} (h : m ≠ .im2) : m = .im0 ∨ m = .im1 := by
  cases m
  · exact .inl rfl
  · exact .inr rfl
  · exact absurd rfl h

/-- Outside mode 2 an acceptance does not read I. -/
theorem State.acceptInt_vector {s t : State} (hmode : s.im ≠ .im2) (h : s.acceptInt = .next t) (v : Byte) :
    State.acceptInt { s with i := v } = .next { t with i := v } := by
  obtain him | him := IntMode.im0_or_im1 hmode
  · rw [State.acceptInt_im0 him] at h
    by_cases hr : isRst s.intBus = true
    · rw [if_pos hr] at h
      cases h
      exact (State.acceptInt_im0 (s := { s with i := v }) him).trans (if_pos hr)
    · rw [if_neg hr] at h
      cases h
  · rw [State.acceptInt_im1 him] at h
    cases h
    exact State.acceptInt_im1 (s := { s with i := v }) him

/-- Settles O42: I is a reserved part of the instructions, and only an acceptance in mode 2 reads it among the other steps. -/
theorem vectorRegisterUse : Obligations.VectorRegisterUse := by
  refine ⟨fun i s t h hi => ⟨exec_keeps_i h hi, fun hai v => ?exec⟩, fun s t h hidle => ?idle, fun s hint him => ?mode2, fun s => ⟨_, rfl, rfl⟩,
    fun s => ⟨_, rfl, rfl⟩, fun s => rfl⟩
  case exec => exact exec_on_eq (u := { i := fun _ => v }) h { vector := fun e => absurd e hi, vectorRead := fun e => absurd e hai }
  case idle =>
    rcases step_cases s with ⟨hnmi, e⟩ | ⟨hint, e⟩ | ⟨hnone, hhalt, e⟩ | ⟨hrun, -⟩
    · cases e.symm.trans h
      refine ⟨by rw [State.acceptNmi_eq]; rfl, fun _ v => ?_⟩
      rw [step_of_nmi (s := { s with i := v }) hnmi, State.acceptNmi_eq, State.acceptNmi_eq]; rfl
    · have ha := e.symm.trans h
      refine ⟨by obtain ⟨reads, target, n, -, rfl⟩ := State.acceptInt_next ha; rfl, fun hmode v => ?_⟩
      exact (step_of_int (s := { s with i := v }) hint).trans (State.acceptInt_vector (fun him => hmode ⟨hint, him⟩) ha v)
    · cases e.symm.trans h
      refine ⟨rfl, fun _ v => step_of_halted (s := { s with i := v }) hnone hhalt⟩
    · exact absurd hrun hidle
  case mode2 =>
    exact ⟨_, s.vectorReads.1, s.vectorReads.2, _, (step_of_int hint).trans (State.acceptInt_im2 him), rfl, rfl⟩

end Sys2Proof.Machine
end

section
/-! PROOFS. The host's Reset() and ExchangeShadow(), which compute (O55, O58, O59). -/

namespace Sys2Proof.Machine

/-- Settles O55: reset clears IFF1, halted and the EI delay, and leaves memory as given. -/
theorem invariantReset : Obligations.InvariantReset :=
  ⟨⟨rfl, fun h => Bool.noConfusion h, fun h => Bool.noConfusion h, fun h => Bool.noConfusion h⟩, fun _ _ _ h =>
    ⟨h, fun h => Bool.noConfusion h, fun h => Bool.noConfusion h, fun h => Bool.noConfusion h⟩⟩

/-- Settles O58: construction sets or copies each field. -/
theorem resetValues : Obligations.ResetValues := by
  intro p contents kinds s
  and_intros <;> rfl

/-- Settles O59: each side computes to the same record. -/
theorem exchangeShadowCall : Obligations.ExchangeShadowCall := fun _ => ⟨rfl, rfl, _, rfl, rfl⟩

end Sys2Proof.Machine
end

section
/-! PROOFS. The canonical form of memory: the bytes decide the list, and a read after a write (O7). -/

namespace Sys2Proof.Machine

theorem Memory.wfFrom_cell {low k : Nat} {v : Byte} {m : Memory} :
    Memory.wfFrom low ((k, v) :: m) = true ↔ low ≤ k ∧ k < 65536 ∧ v ≠ Config.unlistedByte ∧ Memory.wfFrom (k + 1) m = true := by
  simp [Memory.wfFrom, and_assoc]

theorem Memory.read_cell (k : Nat) (v : Byte) (m : Memory) (a : Word) :
    Memory.read ((k, v) :: m) a = if k = a.toNat then v else m.read a := rfl

theorem Memory.read_front {k : Nat} (hk : k < 65536) (v : Byte) (m : Memory) : Memory.read ((k, v) :: m) (BitVec.ofNat 16 k) = v :=
  if_pos (Nat.mod_eq_of_lt hk).symm

/-- The first listed address shows in every memory that reads the same: no such memory lists higher addresses only. -/
theorem Memory.le_of_read_eq {low low' k : Nat} {v : Byte} {m n : Memory} (hm : Memory.wfFrom low ((k, v) :: m) = true)
    (hn : Memory.wfFrom low' n = true) (h : ∀ a : Word, Memory.read ((k, v) :: m) a = n.read a) : low' ≤ k := by
  obtain ⟨-, hk, hv, -⟩ := Memory.wfFrom_cell.mp hm
  by_contra hlow
  refine hv ?_
  calc v
    _ = Memory.read ((k, v) :: m) (BitVec.ofNat 16 k) := (Memory.read_front hk v m).symm
    _ = n.read (BitVec.ofNat 16 k) := h _
    _ = Config.unlistedByte := Memory.read_of_lt hn (by rw [BitVec.toNat_ofNat, Nat.mod_eq_of_lt hk]; omega)

/-- Below a bound on both memories the reads agree anyway, so equal cells may be taken off the front. -/
theorem Memory.read_eq_of_read_cell_eq {k : Nat} {v : Byte} {m n : Memory} (hm : Memory.wfFrom (k + 1) m = true)
    (hn : Memory.wfFrom (k + 1) n = true) (h : ∀ a : Word, Memory.read ((k, v) :: m) a = Memory.read ((k, v) :: n) a) (a : Word) :
    m.read a = n.read a := by
  by_cases ha : k = a.toNat
  · rw [Memory.read_of_lt hm (by omega), Memory.read_of_lt hn (by omega)]
  · simpa [Memory.read_cell, ha] using h a

/-- The canonical form is canonical: the bytes decide the list (log 3). -/
theorem Memory.eq_of_read_eq {low : Nat} {m n : Memory} (hm : Memory.wfFrom low m = true) (hn : Memory.wfFrom low n = true)
    (h : ∀ a : Word, m.read a = n.read a) : m = n := by
  induction m generalizing low n with
  | nil =>
    cases n with
    | nil => rfl
    | cons c n => exact absurd (Memory.le_of_read_eq (low' := c.1 + 1) hn rfl fun a => (h a).symm) (by omega)
  | cons c m ih =>
    cases n with
    | nil => exact absurd (Memory.le_of_read_eq (low' := c.1 + 1) hm rfl h) (by omega)
    | cons c' n =>
      obtain ⟨k, v⟩ := c
      obtain ⟨k', v'⟩ := c'
      obtain ⟨-, hk, hv, hm'⟩ := Memory.wfFrom_cell.mp hm
      obtain ⟨-, hk', hv', hn'⟩ := Memory.wfFrom_cell.mp hn
      have hkk : k = k' := Nat.le_antisymm
        (Memory.le_of_read_eq hn (Memory.wfFrom_cell.mpr ⟨le_rfl, hk, hv, hm'⟩) fun a => (h a).symm)
        (Memory.le_of_read_eq hm (Memory.wfFrom_cell.mpr ⟨le_rfl, hk', hv', hn'⟩) h)
      subst hkk
      have hvv : v = v' := by simpa [Memory.read_front hk] using h (BitVec.ofNat 16 k)
      subst hvv
      rw [ih hm' hn' (Memory.read_eq_of_read_cell_eq hm' hn' h)]

theorem Memory.read_write {m : Memory} (h : m.wf = true) (a b : Word) (v : Byte) : (m.write a v).read b = if b = a then v else m.read b := by
  split
  · next hb => rw [hb, Memory.read_write_same h]
  · next hb => exact Memory.read_write_other m a b v hb

theorem Memory.write_read {m : Memory} (h : m.wf = true) (a : Word) : m.write a (m.read a) = m := by
  refine Memory.eq_of_read_eq (Memory.wf_write h a _) h fun b => ?_
  rw [Memory.read_write h]
  split
  · next hb => rw [hb]
  · rfl

/-- Settles O7, from the rules of a read after a write and from the form's being canonical. -/
theorem memoryReadWrite : Obligations.MemoryReadWrite :=
  ⟨fun _ a b v h => ⟨Memory.read_write h a b v, Memory.wf_write h a v, Memory.write_read h a⟩, fun _ _ => Memory.eq_of_read_eq⟩

end Sys2Proof.Machine
end

section
/-! PROOFS. Memory follows the calls on the host, so it changes only where an instruction's calls write (O38). -/

namespace Sys2Proof.Machine

/-- Memory follows the calls on the host: of the calls made since memory was `m₀` and the record `b₀`, the writes alone change memory, in
their order, each as the kind of memory at its address says (20_memory.md R77, R79). -/
inductive Memory.Follows (kinds : MemMap) (m₀ : Memory) (b₀ : List BusEvent) : Memory → List BusEvent → Prop
  | start : Memory.Follows kinds m₀ b₀ m₀ b₀
  | writeByte {m : Memory} {bus : List BusEvent} (a : Word) (v : Byte) :
      Memory.Follows kinds m₀ b₀ m bus → Memory.Follows kinds m₀ b₀ (m.store kinds a v) (.writeByte a v :: bus)
  | readByte {m : Memory} {bus : List BusEvent} (a : Word) (v : Byte) :
      Memory.Follows kinds m₀ b₀ m bus → Memory.Follows kinds m₀ b₀ m (.readByte a v :: bus)
  | readPort {m : Memory} {bus : List BusEvent} (a : Word) (v : Byte) :
      Memory.Follows kinds m₀ b₀ m bus → Memory.Follows kinds m₀ b₀ m (.readPort a v :: bus)
  | writePort {m : Memory} {bus : List BusEvent} (a : Word) (v : Byte) :
      Memory.Follows kinds m₀ b₀ m bus → Memory.Follows kinds m₀ b₀ m (.writePort a v :: bus)

/-- What memory holds that follows the calls: the old byte at every address that no write names or that is no RAM, and without a write
the old list. -/
theorem Memory.Follows.unwritten {kinds : MemMap} {m₀ m : Memory} {b₀ bus : List BusEvent} (h : Memory.Follows kinds m₀ b₀ m bus) :
    ∃ new, bus = new ++ b₀ ∧ (∀ a, a ∉ new.filterMap BusEvent.written ∨ kinds.kindAt a ≠ .ram → m.read a = m₀.read a) ∧
      (new.filterMap BusEvent.written = [] → m = m₀) := by
  induction h with
  | start => exact ⟨[], rfl, fun _ _ => rfl, fun _ => rfl⟩
  | writeByte b v _ ih =>
    obtain ⟨new, rfl, bytes, -⟩ := ih
    refine ⟨.writeByte b v :: new, rfl, fun a ha => ?_, fun hnone => by cases hnone⟩
    have hother : a ≠ b ∨ kinds.kindAt a ≠ .ram := ha.imp_left List.ne_of_not_mem_cons
    have hnew : a ∉ new.filterMap BusEvent.written ∨ kinds.kindAt a ≠ .ram := ha.imp_left List.not_mem_of_not_mem_cons
    rw [Memory.read_store_other _ _ _ _ _ hother, bytes a hnew]
  | readByte _ _ _ ih | readPort _ _ _ ih | writePort _ _ _ ih =>
    obtain ⟨new, rfl, same⟩ := ih
    exact ⟨_ :: new, rfl, same⟩

/-- No instruction changes memory but by its calls, nor the kinds of memory: once the effect of each operation is written as one record
update, every store stands beside its call. -/
theorem exec_memory_follows (i : Instr) (s : State) :
    ∃ t, exec i s = .next t ∧ t.memMap = s.memMap ∧ Memory.Follows s.memMap s.mem s.bus t.mem t.bus := by
  cases i
  case' djnz | jrCc | jpCcNn | callCcNn | retCc =>
    refine ⟨_, (apply_ite Host.Outcome.next _ _ _).symm, ?_⟩
    split
  any_goals refine ⟨_, rfl, ?_⟩
  all_goals simp only [State.setReg8_eq, State.setHalf_eq, State.setIndex_eq, State.setHalfReg_eq, State.setHl, State.setDe, State.setFlags,
    State.setPair_mem, State.setPair_memMap, State.setPair_bus, State.setStackPair_mem, State.setStackPair_memMap, State.setStackPair_bus,
    State.memRead, State.memRead16_eq, State.readIndexed, State.memWrite, State.memWrite16_eq, State.portRead, State.portWrite, State.note,
    State.pushFor_eq, State.popFor_eq, State.exchangeTop_eq, State.loadPair_eq, State.modifyAt_eq, State.testAt_eq, State.rotateAt_eq,
    State.rotateReg, State.rotateA, State.alu, State.indexed, State.tick, State.tickRedundant_mem, State.tickRedundant_memMap,
    State.tickRedundant_bus, State.emitBranch_eq, State.jump_eq, State.call_eq, State.returnFrom_eq, State.returnFromInterrupt_eq,
    State.moveBlock_eq, State.compareBlock_eq, State.inBlock_eq, State.outBlock_eq, State.repeatBlock_eq, State.repeatIo_eq,
    Memory.Follows.start, Memory.Follows.writeByte, Memory.Follows.readByte, Memory.Follows.readPort, Memory.Follows.writePort, true_and]
  case exMemSpHl | exMemSpIx | exMemSpIy => exact .writeByte _ _ (.writeByte _ _ (.readByte _ _ (.readByte _ _ .start)))

/-- The writes go to the addresses of `storedTo`, each as often as listed. -/
theorem Calls.written_perm {i : Instr} {s : State} {new : List BusEvent} (h : Calls i s new) :
    (new.filterMap BusEvent.written).Perm (storedTo i s) := by
  obtain e | e := h.writes <;> rw [e]
  exact List.reverse_perm _

/-- Settles O38: memory follows the calls, and the writes among them go where the frame says. -/
theorem storesOnlyWhereStated : Obligations.StoresOnlyWhereStated := by
  intro i s t a h
  obtain ⟨t', ht, kinds, follows⟩ := exec_memory_follows i s
  cases h.symm.trans ht
  obtain ⟨new, hbus, calls⟩ := (frame_of_exec h).calls
  obtain ⟨new', hbus', bytes, unchanged⟩ := follows.unwritten
  cases List.append_cancel_right (hbus.symm.trans hbus')
  refine ⟨fun ha => ?bytes, fun hnone => ?nothing, kinds⟩
  case bytes =>
    have read : t.mem.read a = s.mem.read a := bytes a (ha.imp_left fun hs hw => hs (calls.written_perm.mem_iff.mp hw))
    refine ⟨read, fun hdev => ?_⟩
    rw [State.peek_of_ne_device hdev, State.peek_of_ne_device (kinds ▸ hdev), read]
  case nothing => exact unchanged (hnone ▸ calls.written_perm).eq_nil

end Sys2Proof.Machine
end

section
/-! PROOFS. The cells of the opcode spaces: how many operand bytes each takes, and that its instruction is encoded by its opcode byte and these
(30_encoding.md R109 to R116). -/

namespace Sys2Proof

/-- Two readings of one cell, before the bytes `b1 b2` and before `c1 c2`: one form of instruction, which takes none, the first or both of the
bytes and is encoded by an opcode byte and these. -/
inductive SameCell (b1 b2 c1 c2 : Byte) : Instr × Nat → Instr × Nat → Prop
  | plain {i : Instr} {op : Byte} : i.body = [op] → SameCell b1 b2 c1 c2 (i, 0) (i, 0)
  | byte {f : Byte → Instr} {op : Byte} : (∀ b, (f b).body = [op, b]) → SameCell b1 b2 c1 c2 (f b1, 1) (f c1, 1)
  | word {f : Word → Instr} {op : Byte} : (∀ nn, (f nn).body = [op, lo nn, hi nn]) →
      SameCell b1 b2 c1 c2 (f (word b2 b1), 2) (f (word c2 c1), 2)
  | bytes {f : Byte → Byte → Instr} {op : Byte} : (∀ b c, (f b c).body = [op, b, c]) → SameCell b1 b2 c1 c2 (f b1 b2, 2) (f c1 c2, 2)

section
variable {b1 b2 c1 c2 : Byte} {e e' : Instr × Nat}

theorem SameCell.operands (h : SameCell b1 b2 c1 c2 e e') :
    e.2 = e'.2 ∧ e.2 ≤ 2 ∧ e.1.body.head? = e'.1.body.head? ∧ e.1.body.tail = [b1, b2].take e.2 := by
  cases h <;> simp [*]

/-- The operand bytes that a form takes decide the instruction. -/
theorem SameCell.eq_of_operands (h : SameCell b1 b2 c1 c2 e e') (hb : [b1, b2].take e.2 = [c1, c2].take e.2) : e = e' := by
  cases h <;> simp_all

end

/-! ## Every branch of the decoder is one form, whatever the operand bytes -/

section
variable (op b1 b2 c1 c2 : Byte)

theorem sameCell_decodeBase0 : SameCell b1 b2 c1 c2 (decodeBase0 op b1 b2) (decodeBase0 op c1 c2) := by
  dsimp only [decodeBase0]
  repeat' split
  all_goals constructor
  all_goals intros; rfl

theorem sameCell_decodeBase3 : SameCell b1 b2 c1 c2 (decodeBase3 op b1 b2) (decodeBase3 op c1 c2) := by
  dsimp only [decodeBase3, aluN]
  repeat' split
  all_goals constructor
  all_goals intros; rfl

theorem sameCell_decodeBase : SameCell b1 b2 c1 c2 (decodeBase op b1 b2) (decodeBase op c1 c2) := by
  unfold decodeBase
  split
  · exact sameCell_decodeBase0 op b1 b2 c1 c2
  · split <;> exact .plain rfl
  · unfold aluR aluMemHl
    repeat' split
    all_goals exact .plain rfl
  · exact sameCell_decodeBase3 op b1 b2 c1 c2

theorem sameCell_decodeED : SameCell b1 b2 c1 c2 (decodeED op b1 b2) (decodeED op c1 c2) := by
  have block : ∀ op : Byte, opX op = 2 → (decodeED2 op).body = [op] := by decide
  unfold decodeED
  split
  · dsimp only [decodeED1]
    repeat' split
    all_goals constructor
    all_goals intros; rfl
  · next hx => exact .plain (block op hx)
  · exact .plain rfl

/-- A cell that DD or FD leaves to the base space is left to it whatever bytes follow. -/
theorem sameCell_decodeXY (xy : IndexReg) : Option.Rel (SameCell b1 b2 c1 c2) (decodeXY xy op b1 b2) (decodeXY xy op c1 c2) := by
  unfold decodeXY
  split
  case' h_1 => dsimp only [decodeXY0]
  case' h_2 => unfold decodeXY1
  case' h_3 => unfold aluMemXY aluP
  case' h_4 => unfold decodeXY3
  all_goals
    repeat' split
    all_goals cases xy
    all_goals constructor
    all_goals constructor
    all_goals intros; rfl

theorem body_decodeXYCB_tail (xy : IndexReg) (d : Byte) : (decodeXYCB xy d op).body = d :: (decodeXYCB xy 0 op).body.tail := by
  dsimp only [decodeXYCB, rotMemXY, rotMemXYR]
  repeat' split
  all_goals cases xy <;> rfl

end

theorem body_decodeXYCB (xy : IndexReg) (d op : Byte) : (decodeXYCB xy d op).body = [d, op] := by
  have last : ∀ op : Byte, (decodeXYCB xy 0 op).body.tail = [op] := by cases xy <;> decide
  rw [body_decodeXYCB_tail, last]

theorem body_prefixCB (before : Option IndexReg) : (Instr.prefixCB before).body = [0xCB] := rfl

theorem body_decodeCB (op : Byte) : (decodeCB op).body = [op] := by
  revert op; decide

/-! ## The cells: the opcode byte is read back from the fields, and the number of operand bytes is that of R119 -/

/-- A cell of an opcode space: as a function of the two bytes after the opcode byte, an instruction and how many of the two it takes. -/
structure Cell (op : Byte) (n : Nat) (e : Byte → Byte → Instr × Nat) : Prop where
  few : n ≤ 2
  count : ∀ b1 b2, (e b1 b2).2 = n
  body : ∀ b1 b2, (e b1 b2).1.body = op :: [b1, b2].take n
  own : ∀ b1 b2 c1 c2, [b1, b2].take n = [c1, c2].take n → e b1 b2 = e c1 c2

/-- The opcode byte and the number of operand bytes may be read off before operand bytes 0. -/
theorem Cell.of_same {op : Byte} {n : Nat} {e : Byte → Byte → Instr × Nat} (h : ∀ b1 b2 c1 c2, SameCell b1 b2 c1 c2 (e b1 b2) (e c1 c2))
    (hop : (e 0 0).1.body.head? = some op) (hn : (e 0 0).2 = n) : Cell op n e := by
  subst hn
  refine ⟨(h 0 0 0 0).operands.2.1, fun b1 b2 => (h b1 b2 0 0).operands.1, fun b1 b2 => ?body, fun b1 b2 c1 c2 hb => ?own⟩
  case body =>
    obtain ⟨hcount, -, hhead, htail⟩ := (h b1 b2 0 0).operands
    rw [← hcount, ← htail]
    exact (List.cons_head?_tail (hhead.trans hop)).symm
  case own => exact (h b1 b2 c1 c2).eq_of_operands ((h b1 b2 0 0).operands.1 ▸ hb)

theorem cell_decodeBase (op : Byte) : Cell op (baseLength op - 1) (decodeBase op) := by
  have opcode : ∀ op : Byte, (decodeBase op 0 0).1.body.head? = some op ∧ (decodeBase op 0 0).2 = baseLength op - 1 := by decide
  exact .of_same (sameCell_decodeBase op) (opcode op).1 (opcode op).2

theorem cell_decodeED (op : Byte) : Cell op (if op &&& 0xC7 = 0x43 then 2 else 0) (decodeED op) := by
  have opcode : ∀ op : Byte, (decodeED op 0 0).1.body.head? = some op ∧ (decodeED op 0 0).2 = if op &&& 0xC7 = 0x43 then 2 else 0 := by decide
  exact .of_same (sameCell_decodeED op) (opcode op).1 (opcode op).2

/-- R111 b, R119: before an opcode, DD or FD is redundant, and the opcode gains no displacement, or it leads to a cell of its own space. -/
theorem cell_decodeXY (xy : IndexReg) (op : Byte) :
    ((∀ b1 b2, decodeXY xy op b1 b2 = none) ∧ gainsDisplacement op = false) ∨
    ∃ e, (∀ b1 b2, decodeXY xy op b1 b2 = some (e b1 b2)) ∧ Cell op (baseLength op - 1 + if gainsDisplacement op then 1 else 0) e := by
  have redundant : ∀ op : Byte, decodeXY xy op 0 0 = none → gainsDisplacement op = false := by cases xy <;> decide
  have opcode : ∀ op : Byte, ∀ e ∈ decodeXY xy op 0 0,
      e.1.body.head? = some op ∧ e.2 = baseLength op - 1 + if gainsDisplacement op then 1 else 0 := by cases xy <;> decide
  have same := fun b1 b2 c1 c2 => sameCell_decodeXY op b1 b2 c1 c2 xy
  cases h0 : decodeXY xy op 0 0 with
  | none =>
    refine .inl ⟨fun b1 b2 => ?_, redundant op h0⟩
    exact Option.eq_none_iff_forall_ne_some.mpr fun e he => by simpa only [he, h0, Option.not_rel_some_none] using same b1 b2 0 0
  | some e0 =>
    have hsome : ∀ b1 b2, ∃ e, decodeXY xy op b1 b2 = some e := fun b1 b2 =>
      Option.ne_none_iff_exists'.mp fun hnone => by simpa only [hnone, h0, Option.not_rel_none_some] using same b1 b2 0 0
    choose e he using hsome
    have cell : ∀ b1 b2 c1 c2, SameCell b1 b2 c1 c2 (e b1 b2) (e c1 c2) := fun b1 b2 c1 c2 => by
      simpa only [he, Option.rel_some_some] using same b1 b2 c1 c2
    obtain ⟨hop, hcount⟩ := opcode op (e 0 0) (he 0 0)
    exact .inr ⟨e, he, .of_same cell hop hcount⟩

end Sys2Proof
end

section
/-! PROOFS. The decode loop: an accepted instruction takes exactly the bytes of its rows, in the length of R119, and four bytes after the leading
prefixes always suffice (O3, O4, O5). -/

namespace Sys2Proof

/-! ## An opcode with its operand bytes -/

theorem hasBytes_iff {n : Nat} {rest : List Byte} : hasBytes n rest = true ↔ n ≤ rest.length := by
  induction n generalizing rest with
  | zero => simp [hasBytes]
  | succ n ih =>
    cases rest with
    | nil => simp [hasBytes]
    | cons b bs => simp [hasBytes, ih]

theorem take_getD {n : Nat} {rest : List Byte} (hn : n ≤ 2) (h : n ≤ rest.length) :
    [rest.getD 0 0, rest.getD 1 0].take n = rest.take n := by
  match n, rest, hn, h with
  | 0, _, _, _ => rfl
  | 1, _ :: _, _, _ => rfl
  | 2, _ :: _ :: _, _, _ => rfl

/-- A cell read before the bytes that follow the opcode byte, zeros after their end. -/
def readCell (e : Byte → Byte → Instr × Nat) (rest : List Byte) : Instr × Nat := e (rest.getD 0 0) (rest.getD 1 0)

section
variable {op : Byte} {n : Nat} {e : Byte → Byte → Instr × Nat} (hc : Cell op n e) {units : List Instr} {k : Nat} {rest : List Byte}
include hc

theorem Cell.finish_eq : finish units k rest (readCell e rest) =
    if n ≤ rest.length then .ok ⟨units, (readCell e rest).1, k + n, k⟩ else .error .incomplete := by
  simp only [finish, hasBytes_iff, readCell, hc.count]

theorem Cell.body_readCell (h : n ≤ rest.length) : (readCell e rest).1.body = op :: rest.take n := by
  rw [readCell, hc.body, take_getD hc.few h]

theorem Cell.readCell_append (h : n ≤ rest.length) (more : List Byte) : readCell e (rest ++ more) = readCell e rest := by
  refine hc.own _ _ _ _ ?_
  rw [take_getD hc.few h, take_getD hc.few (by simp; omega), List.take_append_of_le_length h]

end

/-! ## The bytes after the leading prefixes -/

/-- The DD/FD byte before the bytes that the decode loop reads with `before`. -/
def leadBytes (before : Option IndexReg) : List Byte := before.toList.map IndexReg.byte

/-- 10_state.md R30, 30_encoding.md R114: how many bytes of the instruction at the front count in R. -/
def fetchCount (bytes : List Byte) : Nat :=
  let k := leadingPrefixes bytes
  let b := bytes.getD k 0
  k + (if b = 0xED then 2 else if b = 0xCB ∧ k = 0 then 2 else 1)

theorem IndexReg.byte_eq (xy : IndexReg) : xy.byte = 0xDD ∨ xy.byte = 0xFD := by cases xy <;> simp [IndexReg.byte]

theorem leadingPrefixes_byte (xy : IndexReg) (bytes : List Byte) : leadingPrefixes (xy.byte :: bytes) = leadingPrefixes bytes + 1 :=
  if_pos xy.byte_eq

/-- A DD/FD byte before another one makes the instruction one byte longer. -/
theorem instructionLength_lead (before : Option IndexReg) (xy : IndexReg) (bytes : List Byte) :
    instructionLength (leadBytes before ++ xy.byte :: bytes) = instructionLength (xy.byte :: bytes) + (leadBytes before).length := by
  cases before with
  | none => rfl
  | some xy' =>
    change instructionLength (xy'.byte :: xy.byte :: bytes) = instructionLength (xy.byte :: bytes) + 1
    simp only [instructionLength, leadingPrefixes_byte, List.getD_cons_succ, Nat.add_one_ne_zero, gt_iff_lt, Nat.zero_lt_succ, if_false]
    split_ifs <;> omega

theorem fetchCount_lead (before : Option IndexReg) (xy : IndexReg) (bytes : List Byte) :
    fetchCount (leadBytes before ++ xy.byte :: bytes) = fetchCount (xy.byte :: bytes) + (leadBytes before).length := by
  cases before with
  | none => rfl
  | some xy' =>
    change fetchCount (xy'.byte :: xy.byte :: bytes) = fetchCount (xy.byte :: bytes) + 1
    simp only [fetchCount, leadingPrefixes_byte, List.getD_cons_succ, Nat.add_one_ne_zero, and_false, if_false]
    omega

/-! ## The decode loop by its first byte -/

theorem isPrefixByte_eq_false {b : Byte} : isPrefixByte b = false ↔ b ≠ 0xCB ∧ b ≠ 0xDD ∧ b ≠ 0xED ∧ b ≠ 0xFD := by
  simp only [isPrefixByte, Bool.or_eq_false_iff, beq_eq_false_iff_ne, and_assoc]

section
variable (before : Option IndexReg) (rest : List Byte)

theorem decodeFrom_byte (xy : IndexReg) :
    decodeFrom before (xy.byte :: rest) = (decodeFrom (some xy) rest).map (Decoded.after (xy.prefixUnit before)) := by
  cases xy <;> rfl

theorem decodeFrom_ed : decodeFrom before (0xED :: rest) = decodeAfterED before rest := rfl

theorem decodeFrom_cb : decodeFrom before (0xCB :: rest) = decodeAfterCB before rest := rfl

theorem decodeFrom_opcode {op : Byte} (hop : isPrefixByte op = false) : decodeFrom before (op :: rest) = decodeOpcode before op rest := by
  obtain ⟨hcb, hdd, hed, hfd⟩ := isPrefixByte_eq_false.mp hop
  simp only [decodeFrom, hcb, hdd, hed, hfd, if_false]

end

/-- The four kinds of a first byte (30_encoding.md R102). -/
theorem firstByte_cases (b : Byte) : (∃ xy : IndexReg, b = xy.byte) ∨ b = 0xED ∨ b = 0xCB ∨ isPrefixByte b = false := by
  by_cases hdd : b = 0xDD
  · exact .inl ⟨.ix, hdd⟩
  by_cases hfd : b = 0xFD
  · exact .inl ⟨.iy, hfd⟩
  rw [isPrefixByte_eq_false]
  tauto

/-- R119: how many operand bytes follow an opcode byte; after DD or FD some opcodes gain a displacement. -/
def operandCount (before : Option IndexReg) (op : Byte) : Nat :=
  baseLength op - 1 + if before.isSome && gainsDisplacement op then 1 else 0

/-- An opcode is read from a cell of its space, or of the base space where DD or FD is redundant. -/
theorem decodeOpcode_cell (before : Option IndexReg) (op : Byte) : ∃ (units : List Instr) (e : Byte → Byte → Instr × Nat),
    units.flatMap Instr.body = [] ∧ Cell op (operandCount before op) e ∧
    ∀ rest, decodeOpcode before op rest = finish units 1 rest (readCell e rest) := by
  cases before with
  | none => exact ⟨[], decodeBase op, rfl, cell_decodeBase op, fun _ => rfl⟩
  | some xy =>
    obtain ⟨hnone, hgain⟩ | ⟨e, hsome, hcell⟩ := cell_decodeXY xy op
    · refine ⟨[.baseRedundant xy], decodeBase op, rfl, by simpa [operandCount, hgain] using cell_decodeBase op, fun rest => ?_⟩
      simp only [decodeOpcode, hnone, readCell]
    · refine ⟨[], e, rfl, by simpa [operandCount] using hcell, fun rest => ?_⟩
      simp only [decodeOpcode, hsome, readCell]

theorem baseLength_pos (op : Byte) : 1 ≤ baseLength op := by
  unfold baseLength
  split_ifs <;> decide

/-- Under a lead, the first byte that is neither DD nor FD stands right after it. -/
theorem leadingPrefixes_lead {b : Byte} (hdd : b ≠ 0xDD) (hfd : b ≠ 0xFD) (before : Option IndexReg) (rest : List Byte) :
    leadingPrefixes (leadBytes before ++ b :: rest) = (leadBytes before).length := by
  have hb : leadingPrefixes (b :: rest) = 0 := if_neg (not_or.mpr ⟨hdd, hfd⟩)
  cases before with
  | none => exact hb
  | some xy => exact (leadingPrefixes_byte xy _).trans (congrArg (· + 1) hb)

theorem getD_lead (lead : List Byte) (b : Byte) (rest : List Byte) : (lead ++ b :: rest).getD lead.length 0 = b := by simp

theorem instructionLength_opcode (before : Option IndexReg) {op : Byte} (hop : isPrefixByte op = false) (rest : List Byte) :
    instructionLength (leadBytes before ++ op :: rest) = 1 + operandCount before op + (leadBytes before).length := by
  obtain ⟨hcb, hdd, hed, hfd⟩ := isPrefixByte_eq_false.mp hop
  simp only [instructionLength, leadingPrefixes_lead hdd hfd, getD_lead, hed, hcb, if_false]
  have hpos := baseLength_pos op
  cases before <;> simp [leadBytes, operandCount] <;> omega

theorem fetchCount_opcode (before : Option IndexReg) {op : Byte} (hop : isPrefixByte op = false) (rest : List Byte) :
    fetchCount (leadBytes before ++ op :: rest) = 1 + (leadBytes before).length := by
  obtain ⟨hcb, hdd, hed, hfd⟩ := isPrefixByte_eq_false.mp hop
  simp only [fetchCount, leadingPrefixes_lead hdd hfd, getD_lead, hed, hcb, false_and, if_false, Nat.add_comm]

theorem instructionLength_ed (before : Option IndexReg) (op : Byte) (rest : List Byte) :
    instructionLength (leadBytes before ++ 0xED :: op :: rest) = 2 + (if op &&& 0xC7 = 0x43 then 2 else 0) + (leadBytes before).length := by
  have next : (leadBytes before ++ 0xED :: op :: rest).getD ((leadBytes before).length + 1) 0 = op := by simp
  simp only [instructionLength, leadingPrefixes_lead (b := 0xED) (by decide) (by decide), getD_lead, next, if_true]
  split_ifs <;> omega

theorem fetchCount_ed (before : Option IndexReg) (rest : List Byte) :
    fetchCount (leadBytes before ++ 0xED :: rest) = 2 + (leadBytes before).length := by
  simp only [fetchCount, leadingPrefixes_lead (b := 0xED) (by decide) (by decide), getD_lead, if_true, Nat.add_comm]

/-- What an accepted instruction takes of the bytes at whose front it stands, after the DD/FD byte of `before`. -/
structure Decoded.Takes (before : Option IndexReg) (bytes : List Byte) (d : Decoded) : Prop where
  body : (d.prefixes ++ [d.instr]).flatMap Instr.body = bytes.take d.len
  fits : d.len ≤ bytes.length
  length : d.len + (leadBytes before).length = instructionLength (leadBytes before ++ bytes)
  fetches : d.m1 + (leadBytes before).length = fetchCount (leadBytes before ++ bytes)
  stable : ∀ more, decodeFrom before (bytes ++ more) = .ok d

section
variable {before : Option IndexReg} {rest : List Byte} {d : Decoded}

theorem Decoded.Takes.after {xy : IndexReg} (h : d.Takes (some xy) rest) : (d.after (xy.prefixUnit before)).Takes before (xy.byte :: rest) where
  body := by
    have own : (xy.prefixUnit before).body = [xy.byte] := by cases xy <;> rfl
    simpa [Decoded.after, own] using h.body
  fits := by simpa [Decoded.after] using h.fits
  length := by
    rw [instructionLength_lead]
    exact congrArg (· + _) h.length
  fetches := by
    rw [fetchCount_lead]
    exact congrArg (· + _) h.fetches
  stable more := by
    rw [List.cons_append, decodeFrom_byte, h.stable]; rfl

/-- An opcode byte that is read from a cell, after the bytes `pre` of its rows: what is taken is these, the opcode byte and its operand bytes. -/
theorem takes_of_cell {op : Byte} {n : Nat} {e : Byte → Byte → Instr × Nat} (hc : Cell op n e) {units : List Instr} {pre : List Byte}
    (hunits : units.flatMap Instr.body = pre)
    (hdecode : ∀ more, decodeFrom before (pre ++ op :: more) = finish units (pre.length + 1) more (readCell e more))
    (hlength : pre.length + 1 + n + (leadBytes before).length = instructionLength (leadBytes before ++ (pre ++ op :: rest)))
    (hfetches : pre.length + 1 + (leadBytes before).length = fetchCount (leadBytes before ++ (pre ++ op :: rest)))
    (h : decodeFrom before (pre ++ op :: rest) = .ok d) : d.Takes before (pre ++ op :: rest) := by
  rw [hdecode, hc.finish_eq] at h
  split at h
  · next hn =>
    cases h
    refine ⟨?body, by simp; omega, hlength, hfetches, fun more => ?stable⟩
    case body =>
      rw [List.flatMap_append, hunits, List.flatMap_singleton, hc.body_readCell hn, Nat.add_assoc, Nat.add_comm 1 n, List.take_length_add_append,
        List.take_succ_cons]
    case stable =>
      rw [List.append_assoc, List.cons_append, hdecode, hc.finish_eq, hc.readCell_append hn, if_pos (by simp; omega)]
  · cases h

theorem takes_decodeFrom_cb (h : decodeFrom before (0xCB :: rest) = .ok d) : d.Takes before (0xCB :: rest) := by
  rw [decodeFrom_cb] at h
  unfold decodeAfterCB at h
  split at h
  · next op rest =>
    cases h
    exact ⟨by simp [body_prefixCB, body_decodeCB], by simp, rfl, rfl, fun more => rfl⟩
  · next xy disp op rest =>
    cases h
    refine ⟨by simp [body_prefixCB, body_decodeXYCB], by simp, ?_, ?_, fun more => rfl⟩ <;> cases xy <;> rfl
  · cases h

theorem takes_decodeFrom_ed (h : decodeFrom before (0xED :: rest) = .ok d) : d.Takes before (0xED :: rest) := by
  cases rest with
  | nil => cases h
  | cons op rest =>
    exact takes_of_cell (pre := [0xED]) (cell_decodeED op) (units := [.prefixED before]) rfl (fun _ => rfl)
      (instructionLength_ed before op rest).symm (fetchCount_ed before (op :: rest)).symm h

theorem takes_decodeFrom_opcode {op : Byte} (hop : isPrefixByte op = false) (h : decodeFrom before (op :: rest) = .ok d) :
    d.Takes before (op :: rest) := by
  obtain ⟨units, e, hunits, hcell, hdecode⟩ := decodeOpcode_cell before op
  exact takes_of_cell (pre := []) hcell hunits (fun more => (decodeFrom_opcode before more hop).trans (hdecode more))
    (instructionLength_opcode before hop rest).symm (fetchCount_opcode before hop rest).symm h

end

/-- R102: every accepted instruction takes its bytes, by induction over the chain of DD/FD bytes. -/
theorem takes_decodeFrom {before : Option IndexReg} {bytes : List Byte} {d : Decoded} (h : decodeFrom before bytes = .ok d) : d.Takes before bytes := by
  induction bytes generalizing before d with
  | nil => cases h
  | cons b rest ih =>
    obtain ⟨xy, rfl⟩ | rfl | rfl | hop := firstByte_cases b
    · rw [decodeFrom_byte] at h
      cases hd : decodeFrom (some xy) rest with
      | error => rw [hd] at h; cases h
      | ok d' => rw [hd] at h; cases h; exact (ih hd).after
    · exact takes_decodeFrom_ed h
    · exact takes_decodeFrom_cb h
    · exact takes_decodeFrom_opcode hop h

theorem takes_decode {bytes : List Byte} {d : Decoded} (h : decode bytes = .ok d) : d.Takes none bytes := takes_decodeFrom h

/-- Settles O3, from what an accepted instruction takes and from the decoder's soundness. -/
theorem decodeReencodes : Obligations.DecodeReencodes := by
  intro bytes d h
  have takes := takes_decode h
  have sound := sound_decode h
  have first : 1 ≤ d.m1 := by
    have hm : d.m1 = fetchCount bytes := takes.fetches
    rw [hm, fetchCount]
    split_ifs <;> omega
  exact ⟨takes.body, sound.instr, first, sound.opcodes, takes.fits⟩

/-- Settles O4: `fetchCount` is the count of the statement, and no DD/FD byte stands before the bytes. -/
theorem decodeLength : Obligations.DecodeLength := fun _ _ h => ⟨(takes_decode h).length, (takes_decode h).fetches⟩

/-- R101: four bytes after the leading prefixes are enough. -/
theorem decodeFrom_total {before : Option IndexReg} {bytes : List Byte} (h : leadingPrefixes bytes + 4 ≤ bytes.length) :
    ∃ d, decodeFrom before bytes = .ok d := by
  induction bytes generalizing before with
  | nil => cases h
  | cons b rest ih =>
    have three (hb : leadingPrefixes (b :: rest) = 0) : ∃ c1 c2 c3 more, rest = c1 :: c2 :: c3 :: more := by
      match rest, hb with
      | c1 :: c2 :: c3 :: more, _ => exact ⟨c1, c2, c3, more, rfl⟩
      | [], hb | [_], hb | [_, _], hb => simp [hb] at h
    obtain ⟨xy, rfl⟩ | rfl | rfl | hop := firstByte_cases b
    · rw [leadingPrefixes_byte, List.length_cons] at h
      obtain ⟨d, hd⟩ := ih (before := some xy) (by omega)
      exact ⟨_, by rw [decodeFrom_byte, hd]; rfl⟩
    · obtain ⟨op, c2, c3, more, rfl⟩ := three rfl
      have hcell := cell_decodeED op
      exact ⟨_, (hcell.finish_eq (units := [.prefixED before]) (k := 2)).trans (if_pos (hcell.few.trans (by simp)))⟩
    · obtain ⟨c1, c2, c3, more, rfl⟩ := three rfl
      cases before <;> exact ⟨_, rfl⟩
    · obtain ⟨-, hdd, -, hfd⟩ := isPrefixByte_eq_false.mp hop
      obtain ⟨units, e, -, hcell, hdecode⟩ := decodeOpcode_cell before b
      obtain ⟨c1, c2, c3, more, rfl⟩ := three (leadingPrefixes_lead hdd hfd none rest)
      rw [decodeFrom_opcode before _ hop, hdecode, hcell.finish_eq]
      exact ⟨_, if_pos (hcell.few.trans (by simp))⟩

/-- Settles O5: enough bytes decode, an accepted instruction stands whatever follows, and so a rejection means too few bytes. -/
theorem decodeTotal : Obligations.DecodeTotal := by
  refine ⟨fun _ => decodeFrom_total, fun _ rest _ h => (takes_decode h).stable rest, fun bytes h => ?_⟩
  by_contra hlen
  obtain ⟨d, hd⟩ := decodeFrom_total (before := none) (Nat.not_lt.mp hlen)
  cases h.symm.trans hd

end Sys2Proof
end

section
/-! PROOFS. A DD/FD byte that does not govern: the same instruction, one byte and one opcode fetch later (O6). -/

namespace Sys2Proof

theorem decode_byte (xy : IndexReg) (bytes : List Byte) :
    decode (xy.byte :: bytes) = (decodeFrom (some xy) bytes).map (Decoded.after (xy.prefixUnit none)) := decodeFrom_byte none bytes xy

/-- A cell read with other rows before it and after more opcode fetches. -/
theorem finish_ok_units {units us : List Instr} {k len m1 : Nat} {rest : List Byte} {entry : Instr × Nat} {i : Instr}
    (h : finish units k rest entry = .ok ⟨us, i, len, m1⟩) (units' : List Instr) : finish units' k rest entry = .ok ⟨units', i, len, m1⟩ := by
  unfold finish at h ⊢
  split at h
  · next hbytes => cases h; exact if_pos hbytes
  · cases h

/-- A cell that DD or FD does not change is none of the four prefixes, which are all cells of the DD and FD spaces. -/
theorem isPrefixByte_of_decodeXY_none {xy : IndexReg} {op b1 b2 : Byte} (h : decodeXY xy op b1 b2 = none) : isPrefixByte op = false := by
  obtain ⟨xy', rfl⟩ | rfl | rfl | hop := firstByte_cases op
  · cases xy' <;> cases h
  · cases h
  · cases h
  · exact hop

theorem decode_byte_byte (xy xy' : IndexReg) {bytes : List Byte} {us : List Instr} {i : Instr} {len m1 : Nat}
    (h : decode (xy'.byte :: bytes) = .ok ⟨xy'.prefixUnit none :: us, i, len, m1⟩) :
    decode (xy.byte :: xy'.byte :: bytes) = .ok ⟨xy.prefixUnit none :: xy'.prefixUnit (some xy) :: us, i, len + 1, m1 + 1⟩ := by
  rw [decode_byte] at h
  cases hd : decodeFrom (some xy') bytes with
  | error => rw [hd] at h; cases h
  | ok d =>
    rw [hd] at h
    cases h
    rw [decode_byte, decodeFrom_byte, hd]
    rfl

theorem decode_byte_ed (xy : IndexReg) {bytes : List Byte} {i : Instr} {len m1 : Nat}
    (h : decode (0xED :: bytes) = .ok ⟨[.prefixED none], i, len, m1⟩) :
    decode (xy.byte :: 0xED :: bytes) = .ok ⟨[xy.prefixUnit none, .prefixED (some xy)], i, len + 1, m1 + 1⟩ := by
  cases bytes with
  | nil => cases h
  | cons op rest =>
    have hed : decodeFrom (some xy) (0xED :: op :: rest) = .ok ⟨[.prefixED (some xy)], i, len, m1⟩ := finish_ok_units h _
    rw [decode_byte, hed]
    rfl

theorem decode_byte_redundant (xy : IndexReg) {op : Byte} {bytes : List Byte} {i : Instr} {len m1 : Nat}
    (hnone : decodeXY xy op (bytes.getD 0 0) (bytes.getD 1 0) = none) (h : decode (op :: bytes) = .ok ⟨[], i, len, m1⟩) :
    decode (xy.byte :: op :: bytes) = .ok ⟨[xy.prefixUnit none, .baseRedundant xy], i, len + 1, m1 + 1⟩ := by
  have hop := isPrefixByte_of_decodeXY_none hnone
  have base : finish [] 1 bytes (readCell (decodeBase op) bytes) = .ok ⟨[], i, len, m1⟩ := (decodeFrom_opcode none bytes hop).symm.trans h
  have redundant : decodeOpcode (some xy) op bytes = .ok ⟨[.baseRedundant xy], i, len, m1⟩ := by
    simp only [decodeOpcode, hnone]
    exact finish_ok_units base _
  rw [decode_byte, decodeFrom_opcode _ _ hop, redundant]
  rfl

/-- Settles O6: the three kinds of redundant DD/FD bytes, then the cost of every row. -/
theorem redundantPrefixes : Obligations.RedundantPrefixes :=
  ⟨fun xy xy' _ _ _ _ _ h => decode_byte_byte xy xy' h, fun xy _ _ _ _ h => decode_byte_ed xy h,
    fun xy _ _ _ _ _ hnone h => decode_byte_redundant xy hnone h, fun _ => ⟨rfl, rfl, rfl, rfl⟩, fun _ _ => rfl, fun _ _ => rfl, fun _ _ => rfl,
    fun _ _ => rfl, fun _ _ => rfl⟩

end Sys2Proof
end

section
/-! PROOFS. The two stops of a step, and that it answers in every other state (O50). -/

namespace Sys2Proof.Machine

/-- A run of prefixes that ends before its bound is no longer under any other bound. -/
theorem State.prefixRun_le_of_lt {s : State} {m : Nat} {a : Word} (h : s.prefixRun m a < m) (n : Nat) : s.prefixRun n a ≤ s.prefixRun m a := by
  induction m generalizing s a n with
  | zero => cases h
  | succ m ih =>
    cases n with
    | zero => exact Nat.zero_le _
    | succ n =>
      unfold State.prefixRun at h ⊢
      split
      · next hp => exact Nat.succ_le_succ (ih (Nat.lt_of_succ_lt_succ (by rwa [if_pos hp] at h)) n)
      · exact Nat.le_refl 0

/-- R119, R120: where the chain of prefixes ends, the window holds the whole instruction. -/
theorem State.window_decodes {s : State} (h : s.prefixesOnly = false) : ∃ d, decode s.window = .ok d := by
  have hlt : s.prefixRun Config.prefixFuel s.pc < Config.prefixFuel :=
    Nat.lt_of_le_of_ne (prefixRun_le _ _ _) (by simpa [State.prefixesOnly] using h)
  refine decodeTotal.1 _ ?_
  rw [State.window, ← State.prefixRun_eq, State.bytesAt_length]
  exact Nat.add_le_add_right (State.prefixRun_le_of_lt hlt _) 4

theorem exec_answers (i : Instr) (s : State) : ∃ t, exec i s = .next t :=
  (exec_memory_follows i s).imp fun _ h => h.1

theorem executeInstruction_hang {s : State} (h : s.allPrefixes) : s.executeInstruction = .fault .prefixHang :=
  if_pos (s.prefixesOnly_iff.mpr h)

theorem executeInstruction_answers {s : State} (h : ¬s.allPrefixes) : ∃ t, s.executeInstruction = .next t := by
  have hends : s.prefixesOnly = false := by rwa [← Bool.not_eq_true, State.prefixesOnly_iff]
  obtain ⟨d, hd⟩ := State.window_decodes hends
  obtain ⟨n, -, hrows⟩ := runUnits_rows (sound_decode hd).rows (s.beginInstruction.fetch d.m1 (d.len - d.m1))
  simp only [State.executeInstruction, hends, hd, Result.runUnits_append _ _ _ _ hrows, runUnits_singleton]
  exact exec_answers _ _

theorem acceptInt_refuses {s : State} (him : s.im = .im0) (h : s.intBus &&& 0xC7 ≠ 0xC7) : s.acceptInt = .refused .im0Response :=
  (State.acceptInt_im0 him).trans (if_neg (by simpa [isRst] using h))

theorem acceptInt_answers {s : State} (h : ¬(s.im = .im0 ∧ s.intBus &&& 0xC7 ≠ 0xC7)) : ∃ t, s.acceptInt = .next t := by
  cases him : s.im with
  | im0 =>
    have hrst : isRst s.intBus = true := by simpa [isRst, him] using h
    exact ⟨_, (State.acceptInt_im0 him).trans (if_pos hrst)⟩
  | im1 => exact ⟨_, State.acceptInt_im1 him⟩
  | im2 => exact ⟨_, State.acceptInt_im2 him⟩

/-- Everything a step can answer, with the states in which it does. -/
theorem step_answer_cases (s : State) :
    ((s.runsInstruction ∧ s.allPrefixes) ∧ ¬s.im0Unanswered ∧ step s = .fault .prefixHang) ∨
    (¬(s.runsInstruction ∧ s.allPrefixes) ∧ s.im0Unanswered ∧ step s = .refused .im0Response) ∨
    (¬(s.runsInstruction ∧ s.allPrefixes) ∧ ¬s.im0Unanswered ∧ ∃ t, step s = .next t) := by
  rcases step_cases s with ⟨hnmi, e⟩ | ⟨hint, e⟩ | ⟨hnone, hhalt, e⟩ | ⟨hrun, e⟩
  · have clear : s.nmiPending ≠ false := by simp [hnmi]
    exact .inr (.inr ⟨fun ⟨⟨⟨hn, _⟩, _⟩, _⟩ => clear hn, fun ⟨⟨hn, _⟩, _⟩ => clear hn, _, e⟩)
  · have hidle : ¬(s.runsInstruction ∧ s.allPrefixes) := fun ⟨⟨⟨_, hnone⟩, _⟩, _⟩ => hnone hint.2
    by_cases h0 : s.im = .im0 ∧ s.intBus &&& 0xC7 ≠ 0xC7
    · exact .inr (.inl ⟨hidle, ⟨hint, h0⟩, e.trans (acceptInt_refuses h0.1 h0.2)⟩)
    · exact .inr (.inr ⟨hidle, fun h => h0 h.2, e ▸ acceptInt_answers h0⟩)
  · have running : s.halted ≠ false := by simp [hhalt]
    exact .inr (.inr ⟨fun ⟨⟨_, hrun⟩, _⟩ => running hrun, fun ⟨hint, _⟩ => hnone.2 hint.2, _, e⟩)
  · have hanswered : ¬s.im0Unanswered := fun ⟨hint, _⟩ => hrun.1.2 hint.2
    by_cases hall : s.allPrefixes
    · exact .inl ⟨⟨hrun, hall⟩, hanswered, e.trans (executeInstruction_hang hall)⟩
    · exact .inr (.inr ⟨fun h => hall h.2, hanswered, e ▸ executeInstruction_answers hall⟩)

/-- Settles O50: each stop is the answer in its own states, and in no other. -/
theorem stepStopsExactly : Obligations.StepStopsExactly := by
  intro s
  rcases step_answer_cases s with ⟨hhang, hint, e⟩ | ⟨hhang, hint, e⟩ | ⟨hhang, hint, t, e⟩
  all_goals simp [e, hhang, hint]

end Sys2Proof.Machine
end

section
/-! PROOFS. The 8-bit loads and stores as whole next states (O15, O16, O17). -/

namespace Sys2Proof.Machine

/-! ## Time passing after a register write is time passing before it -/

theorem State.tick_setReg8 (s : State) (r : Reg8) (v : Byte) (n : Nat) : (s.setReg8 r v).tick n = (s.tick n).setReg8 r v := by
  cases r <;> rfl

theorem State.tick_setHalf (s : State) (xy : IndexReg) (p : Half) (v : Byte) (n : Nat) :
    (s.setHalf xy p v).tick n = (s.tick n).setHalf xy p v := by
  cases xy <;> cases p <;> rfl

theorem State.tick_setHalfReg (s : State) (xy : IndexReg) (q : HalfReg) (v : Byte) (n : Nat) :
    (s.setHalfReg xy q v).tick n = (s.tick n).setHalfReg xy q v := by
  cases q with
  | xyh => exact s.tick_setHalf xy .high v n
  | xyl => exact s.tick_setHalf xy .low v n
  | b | c | d | e | a => rfl

/-! ## The next states -/

/-- Settles O15: a load through a register table writes the register and then takes its time, the statement the other way round, both on the
state after the read; the loads of A through BC, DE and nn compute. -/
theorem load8 : Obligations.Load8 :=
  ⟨fun r _ s => congrArg Host.Outcome.next (s.tick_setReg8 r _ 4),
    fun r n s => congrArg Host.Outcome.next (s.tick_setReg8 r n 7),
    fun xy q _ s => congrArg Host.Outcome.next (s.tick_setHalfReg xy q _ 8),
    fun xy p n s => congrArg Host.Outcome.next (s.tick_setHalf xy p n 11),
    fun r s => congrArg Host.Outcome.next ((s.memRead s.hl).2.tick_setReg8 r _ 7),
    fun r d s => congrArg Host.Outcome.next ((s.readIndexed .ix d).2.tick_setReg8 r _ 19),
    fun r d s => congrArg Host.Outcome.next ((s.readIndexed .iy d).2.tick_setReg8 r _ 19),
    fun _ => rfl, fun _ => rfl, fun _ _ => rfl⟩

/-- Settles O16: a store is one `memWrite` with the WZ and the time of its rule, which compute. -/
theorem store8 : Obligations.Store8 :=
  ⟨fun _ _ => rfl, fun _ _ => rfl, fun _ _ _ => rfl, fun _ _ _ => rfl, fun _ _ _ => rfl, fun _ _ _ => rfl, fun _ => rfl, fun _ => rfl,
    fun _ _ => rfl⟩

/-- Settles O17: `interruptFlags` is the flags of the statement, and the C it keeps is bit 0 of F. -/
theorem interruptRegisterLoads : Obligations.InterruptRegisterLoads :=
  ⟨fun _ => rfl, fun _ => rfl, fun _ => rfl, fun _ => rfl⟩

end Sys2Proof.Machine
end

section
/-! PROOFS. The 16-bit loads and stores, PUSH and POP as whole next states, and a pushed pair popped back (O18, O19, O20). -/

namespace Sys2Proof.Machine

/-! ## Writes of a pair -/

theorem State.tick_setPair (s : State) (p : RegPair) (v : Word) (n : Nat) : (s.setPair p v).tick n = (s.tick n).setPair p v := by
  cases p <;> rfl

theorem State.tick_setStackPair (s : State) (p : StackPair) (v : Word) (n : Nat) :
    (s.setStackPair p v).tick n = (s.tick n).setStackPair p v := by
  cases p <;> rfl

/-- Writing to HL the word of two bytes writes H and L. -/
theorem State.setHl_word (s : State) (high low : Byte) : s.setHl (word high low) = { s with h := high, l := low } := by
  rw [State.setHl, hi_word, lo_word]

/-- A pair that takes the value it holds changes nothing. -/
theorem State.setStackPair_stackPair (s : State) (p : StackPair) : s.setStackPair p (s.stackPair p) = s := by
  cases p
  case bc => rw [State.stackPair, State.bc, State.setStackPair, State.setBc, hi_word, lo_word]
  case de => rw [State.stackPair, State.de, State.setStackPair, State.setDe, hi_word, lo_word]
  case hl => exact s.setHl_word s.h s.l
  case af => rw [State.stackPair, State.af, State.setStackPair, State.setAf, hi_word, lo_word]

/-! ## The next states of the loads and stores -/

theorem State.tick_loadPair (s : State) (i : Instr) (p : RegPair) (v : Word) (n : Nat) : (s.loadPair i p v).tick n =
    ({ s with stackLog := if p = .sp then s.stackLogWithSp i v else s.stackLog, tacts := s.tacts + n } : State).setPair p v := by
  rw [State.loadPair_eq, State.tick_setPair]; rfl

/-- Settles O18: a load of a pair is one `loadPair` (LD SP,HL, LD SP,IX and LD SP,IY load SP by it), a read of two bytes one `memRead16`, a store
one `memWrite16`; HL is the word of H and L, and the rest computes. -/
theorem loadStore16 : Obligations.LoadStore16 := by
  refine ⟨fun dd nn s => congrArg Host.Outcome.next (s.tick_loadPair _ dd nn 10), fun _ _ => rfl, fun _ _ => rfl,
    fun nn s => ?ldHlMemNn, fun dd nn s => ?ldDdMemNn, fun _ _ => rfl, fun _ _ => rfl,
    fun s => congrArg Host.Outcome.next (s.tick_loadPair _ .sp s.hl 6), fun s => congrArg Host.Outcome.next (s.tick_loadPair _ .sp s.ix 10),
    fun s => congrArg Host.Outcome.next (s.tick_loadPair _ .sp s.iy 10), fun nn s => ?ldMemNnHl, fun _ _ _ => rfl, fun _ _ => rfl,
    fun _ _ => rfl⟩
  case ldHlMemNn =>
    rw [exec, execLdHlMemNn, State.memRead16_eq, State.setHl_word]
  case ldDdMemNn =>
    rw [exec, execLdDdMemNn, State.memRead16_eq, State.loadPair_eq]
    cases dd <;> rfl
  case ldMemNnHl =>
    rw [exec, execLdMemNnHl, State.memWrite16_eq, State.hl, hi_word, lo_word]

/-! ## PUSH and POP -/

/-- Settles O19, from what a push and a pop with their records do. -/
theorem pushPop : Obligations.PushPop := by
  refine ⟨fun qq s => ?pushQq, fun s => ?pushIx, fun s => ?pushIy, fun qq s => ?popQq, fun s => ?popIx, fun s => ?popIy⟩
  case pushQq => exact congrArg (fun t : State => Host.Outcome.next (t.tick 11)) (s.pushFor_eq _ _)
  case pushIx => exact congrArg (fun t : State => Host.Outcome.next (t.tick 15)) (s.pushFor_eq _ _)
  case pushIy => exact congrArg (fun t : State => Host.Outcome.next (t.tick 15)) (s.pushFor_eq _ _)
  case popQq =>
    rw [exec, execPopQq, State.popFor_eq, State.tick_setStackPair]; rfl
  case popIx => rw [exec, execPopIx, State.popFor_eq]
  case popIy => rw [exec, execPopIy, State.popFor_eq]

/-! ## A pushed pair pops back -/

/-- What memory holds after two bytes are stored in RAM. -/
theorem Memory.read_store_store {m : Memory} (h : m.wf = true) {kinds : MemMap} {a b : Word} (ha : kinds.kindAt a = .ram)
    (hb : kinds.kindAt b = .ram) (u v : Byte) (x : Word) :
    ((m.store kinds a u).store kinds b v).read x = if x = b then v else if x = a then u else m.read x := by
  rw [Memory.store_of_ram ha, Memory.store_of_ram hb, Memory.read_write (Memory.wf_write h a u), Memory.read_write h]

/-- 00_scope.md R11: what every byte of RAM and ROM reads as after a push into RAM. -/
theorem State.peek_pushFor {s : State} (h : s.mem.wf = true) (hhigh : s.memMap.kindAt (s.sp - 1) = .ram)
    (hlow : s.memMap.kindAt (s.sp - 2) = .ram) (o : Origin) (v : Word) {a : Word} (ha : s.memMap.kindAt a ≠ .device) :
    (s.pushFor o v).peek a = if a = s.sp - 2 then lo v else if a = s.sp - 1 then hi v else s.peek a := by
  have kind : (s.pushFor o v).memMap.kindAt a ≠ .device := by rw [State.pushFor_eq]; exact ha
  rw [State.peek_of_ne_device kind, State.peek_of_ne_device ha, State.pushFor_eq]
  exact Memory.read_store_store h hhigh hlow (hi v) (lo v) a

/-- A pop into a pair that already holds the value on the stack leaves the pair as it is. -/
theorem exec_popQq_of_top {qq : StackPair} {s : State} (top : (s.popFor (.instr (.popQq qq))).1 = s.stackPair qq) :
    exec (.popQq qq) s = .next ((s.popFor (.instr (.popQq qq))).2.tick 10) := by
  have keep : (s.popFor (.instr (.popQq qq))).2.stackPair qq = s.stackPair qq := by
    rw [State.popFor_eq]; rfl
  rw [exec, execPopQq, top, ← keep, State.setStackPair_stackPair]

/-- Settles O20: the two bytes that the pop reads are the ones that the push wrote, for SP - 1 and SP - 2 differ, so the pop puts the pair's own
value back, and SP - 2 + 2 is SP. -/
theorem pushThenPop : Obligations.PushThenPop := by
  intro qq s hwf hhigh hlow
  obtain ⟨t, hpush, ht⟩ : ∃ t, exec (.pushQq qq) s = .next t ∧ t = (s.pushFor (.instr (.pushQq qq)) (s.stackPair qq)).tick 11 :=
    ⟨_, rfl, rfl⟩
  have bytes {a : Word} (ha : s.memMap.kindAt a ≠ .device) :
      t.peek a = if a = s.sp - 2 then lo (s.stackPair qq) else if a = s.sp - 1 then hi (s.stackPair qq) else s.peek a :=
    ht ▸ State.peek_pushFor hwf hhigh hlow _ _ ha
  rw [State.pushFor_eq] at ht
  have high : t.peek (s.sp - 1) = hi (s.stackPair qq) := by
    rw [bytes (hhigh ▸ by decide), if_neg (by bv_omega), if_pos rfl]
  have low : t.peek (s.sp - 2) = lo (s.stackPair qq) := by
    rw [bytes (hlow ▸ by decide), if_pos rfl]
  have top : (t.popFor (.instr (.popQq qq))).1 = t.stackPair qq := by
    have hsp : t.sp = s.sp - 2 := ht ▸ rfl
    have hkind : t.memMap.kindAt (s.sp - 1) = .ram := ht ▸ hhigh
    rw [State.popFor_eq, hsp, sub_two_add_one]
    calc word (t.peekNext (s.sp - 2) (s.sp - 1)) (t.peek (s.sp - 2))
      _ = word (hi (s.stackPair qq)) (lo (s.stackPair qq)) := by rw [State.peekNext_of_ne_device (hkind ▸ by decide), high, low]
      _ = s.stackPair qq := word_hi_lo _
      _ = t.stackPair qq := by rw [ht]; rfl
  refine ⟨t, _, hpush, exec_popQq_of_top top, high, low, fun a ha hne hne' => ?others, ?popped⟩
  case others => rw [bytes ha, if_neg hne', if_neg hne]
  case popped =>
    rw [State.popFor_eq, ht]
    simp only [State.tick, BitVec.sub_add_cancel]

end Sys2Proof.Machine
end

section
/-! PROOFS. The exchanges, the block transfers and the block searches as whole next states (O21, O22). -/

namespace Sys2Proof

theorem add_neg_one (w : Word) : w + -1 = w - 1 := (BitVec.sub_eq_add_neg w 1).symm

/-- Bit k of an exclusive or says whether an odd number of its operands have bit k. -/
theorem getLsbD_xor_xor {w : Nat} (x y z : BitVec w) (k : Nat) :
    (x ^^^ y ^^^ z).getLsbD k = decide ((x.toNat / 2 ^ k + y.toNat / 2 ^ k + z.toNat / 2 ^ k) % 2 = 1) := by
  rw [BitVec.getLsbD, Nat.testBit_eq_decide_div_mod_eq, BitVec.toNat_xor, BitVec.toNat_xor, Nat.xor_div_two_pow, Nat.xor_div_two_pow,
    Nat.xor_mod_two_eq, Nat.add_mod, Nat.xor_mod_two_eq, Nat.mod_add_mod, Nat.add_mod_mod]

namespace Machine

/-! ## The difference of two bytes (43_alu8.md R221) -/

theorem toNat_sub8 (a b : Byte) (c : Bool) : (sub8 a b c).1.toNat = (a.toNat + 512 - b.toNat - c.toNat) % 256 := by
  rw [← carryNat_eq]; rfl

theorem sub8_false (a b : Byte) : (sub8 a b false).1 = a - b := by
  apply BitVec.eq_of_toNat_eq
  rw [toNat_sub8, BitVec.toNat_sub, Bool.toNat_false]
  omega

/-- The two forms of H that R221 gives: a borrow was taken from bit 4 when an odd number of the operands and the difference have that bit. -/
theorem sub8_half (a b : Byte) (c : Bool) : (sub8 a b c).2.h = (a ^^^ b ^^^ (sub8 a b c).1).getLsbD 4 := by
  have hhalf : (sub8 a b c).2.h = decide (a.toNat % 16 < b.toNat % 16 + c.toNat) := by rw [← carryNat_eq]; rfl
  have hc := c.toNat_le
  rw [hhalf, getLsbD_xor_xor, toNat_sub8, decide_eq_decide]
  omega

/-- R209 takes H as R221 does. -/
theorem cpiFlags_eq (a v : Byte) (bcAfter : Word) (old : Flags) : cpiFlags a v bcAfter old =
    { s := (a - v).getLsbD 7, z := a - v == 0, r5 := (a - v - flagBit (sub8 a v false).2.h).getLsbD 1, h := (sub8 a v false).2.h,
      r3 := (a - v - flagBit (sub8 a v false).2.h).getLsbD 3, pv := bcAfter != 0, n := true, c := old.c } := by
  rw [sub8_half, sub8_false]; rfl

/-! ## The exchanges -/

/-- Settles O21: an exchange with the top of the stack is one `exchangeTop`, and a pair is the word of its two registers. -/
theorem exchanges : Obligations.Exchanges := by
  refine ⟨fun s => ?exDeHl, fun _ => rfl, fun _ => rfl, fun s => ?exMemSpHl, fun s => ?exMemSpIx, fun s => ?exMemSpIy⟩
  case exDeHl => rw [exec, execExDeHl, State.de, State.setHl_word, State.setDe, State.hl, hi_word, lo_word]; rfl
  case exMemSpHl => rw [exec, execExMemSpHl, State.exchangeTop_eq, State.setHl_word, State.hl, hi_word, lo_word]
  case exMemSpIx => rw [exec, execExMemSpIx, State.exchangeTop_eq]
  case exMemSpIy => rw [exec, execExMemSpIy, State.exchangeTop_eq]

/-! ## When a block instruction repeats -/

theorem State.moveBlock_bc (s : State) (delta : Word) : (s.moveBlock delta).bc = s.bc - 1 := word_hi_lo _

theorem State.compareBlock_bc (s : State) (delta : Word) : (s.compareBlock delta).bc = s.bc - 1 := word_hi_lo _

theorem State.compareBlock_z (s : State) (delta : Word) : (s.compareBlock delta).flags.z = (s.a - s.peek s.hl == 0) :=
  congrArg Flags.z (Flags.ofByte_toByte _)

theorem State.repeatBlock_of_iff {again : Bool} {p : Prop} [Decidable p] (h : again = true ↔ p) (s : State) : s.repeatBlock again =
    { s with pc := if p then s.pc - 2 else s.pc, wz := if p then s.pc - 1 else s.wz, tacts := s.tacts + if p then 21 else 16 } := by
  simp only [State.repeatBlock_eq, h]

/-- R206: a transfer repeats until BC is zero. -/
theorem State.repeatBlock_moveBlock (s : State) (delta : Word) :
    (s.moveBlock delta).repeatBlock ((s.moveBlock delta).bc != 0) =
      { s.moveBlock delta with
        pc := if s.bc - 1 = 0 then s.pc else s.pc - 2, wz := if s.bc - 1 = 0 then s.wz else s.pc - 1,
        tacts := s.tacts + if s.bc - 1 = 0 then 16 else 21 } := by
  rw [State.moveBlock_bc, State.repeatBlock_of_iff bne_iff_ne, State.moveBlock_eq]
  simp only [ne_eq, ite_not]

/-- R210: a search repeats until BC is zero or the byte matched. -/
theorem State.repeatBlock_compareBlock (s : State) (delta : Word) :
    (s.compareBlock delta).repeatBlock ((s.compareBlock delta).bc != 0 && !(s.compareBlock delta).flags.z) =
      { s.compareBlock delta with
        pc := if s.bc - 1 ≠ 0 ∧ s.a - s.peek s.hl ≠ 0 then s.pc - 2 else s.pc,
        wz := if s.bc - 1 ≠ 0 ∧ s.a - s.peek s.hl ≠ 0 then s.pc - 1 else s.wz + delta,
        tacts := s.tacts + if s.bc - 1 ≠ 0 ∧ s.a - s.peek s.hl ≠ 0 then 21 else 16 } := by
  have again : (s.bc - 1 != 0 && !(s.a - s.peek s.hl == 0)) = true ↔ s.bc - 1 ≠ 0 ∧ s.a - s.peek s.hl ≠ 0 := by
    rw [Bool.and_eq_true, bne_iff_ne, Bool.not_eq_true', beq_eq_false_iff_ne]
  rw [State.compareBlock_bc, State.compareBlock_z, State.repeatBlock_of_iff again]
  rfl

/-! ## The block transfers and searches -/

/-- Settles O22, from what one transfer and one search do and when they repeat; a step down is the step by -1. -/
theorem blockTransferAndSearch : Obligations.BlockTransferAndSearch := by
  refine ⟨fun s => ?ldi, fun s => ?ldd, fun s => ?ldir, fun s => ?lddr, fun s => ?cpi, fun s => ?cpd, fun s => ?cpir, fun s => ?cpdr⟩
  case ldi => rw [exec, execLdi, State.moveBlock_eq]; rfl
  case ldd => rw [exec, execLdd, State.moveBlock_eq, add_neg_one, add_neg_one]; rfl
  case ldir => rw [exec, execLdir, State.repeatBlock_moveBlock, State.moveBlock_eq]; rfl
  case lddr => rw [exec, execLddr, State.repeatBlock_moveBlock, State.moveBlock_eq, add_neg_one, add_neg_one]; rfl
  case cpi => rw [exec, execCpi, State.compareBlock_eq, cpiFlags_eq]; rfl
  case cpd => rw [exec, execCpd, State.compareBlock_eq, cpiFlags_eq, add_neg_one, add_neg_one]; rfl
  case cpir => rw [exec, execCpir, State.repeatBlock_compareBlock, State.compareBlock_eq, cpiFlags_eq]
  case cpdr => rw [exec, execCpdr, State.repeatBlock_compareBlock, State.compareBlock_eq, cpiFlags_eq, add_neg_one, add_neg_one]

end Machine
end Sys2Proof
end

section
/-! PROOFS. The flags of the 8-bit operations as exact sums and differences (O10, O11, O12, O13). -/

namespace Sys2Proof.Machine

/-! ## A byte read as a signed number -/

theorem getLsbD_seven (v : Byte) : v.getLsbD 7 = decide (128 ≤ v.toNat) :=
  (BitVec.msb_eq_getLsbD_last v).symm.trans (BitVec.msb_eq_decide v)

theorem toInt_byte (v : Byte) : v.toInt = ((v.toNat : Int) + 128) % 256 - 128 := by
  rw [BitVec.toInt_eq_toNat_cond]
  split <;> omega

/-! ## ADD8 and SUB8 (43_alu8.md R220, R221) -/

theorem toNat_add8 (a b : Byte) (c : Bool) : (add8 a b c).1.toNat = (a.toNat + b.toNat + c.toNat) % 256 := by
  rw [← carryNat_eq]; rfl

theorem add8_h_iff (a b : Byte) (c : Bool) : (add8 a b c).2.h = true ↔ a.toNat % 16 + b.toNat % 16 + c.toNat > 15 := by
  rw [← carryNat_eq]; exact decide_eq_true_iff

theorem add8_c_iff (a b : Byte) (c : Bool) : (add8 a b c).2.c = true ↔ a.toNat + b.toNat + c.toNat > 255 := by
  rw [← carryNat_eq]; exact decide_eq_true_iff

theorem add8_pv_iff (a b : Byte) (c : Bool) : (add8 a b c).2.pv = true ↔
    a.getLsbD 7 = b.getLsbD 7 ∧ (add8 a b c).1.getLsbD 7 ≠ a.getLsbD 7 :=
  (Bool.and_eq_true_iff ..).trans (and_congr beq_iff_eq bne_iff_ne)

/-- The two forms of H that R220 gives: a carry came out of bit 3 when an odd number of the operands and the sum have bit 4. -/
theorem add8_half (a b : Byte) (c : Bool) : (add8 a b c).2.h = (a ^^^ b ^^^ (add8 a b c).1).getLsbD 4 := by
  have hc := c.toNat_le
  rw [Bool.eq_iff_iff, add8_h_iff, getLsbD_xor_xor, toNat_add8, decide_eq_true_iff]
  omega

/-- The two forms of PV that R220 gives: operands of one sign with a sum of the other. -/
theorem add8_overflow (a b : Byte) (c : Bool) : (add8 a b c).2.pv = true ↔
    a.toInt + b.toInt + c.toNat < -128 ∨ a.toInt + b.toInt + c.toNat > 127 := by
  have hc := c.toNat_le
  rw [add8_pv_iff]
  simp only [getLsbD_seven, decide_eq_decide, ne_eq, toInt_byte, toNat_add8]
  omega

theorem sub8_h_iff (a b : Byte) (c : Bool) : (sub8 a b c).2.h = true ↔ a.toNat % 16 < b.toNat % 16 + c.toNat := by
  rw [← carryNat_eq]; exact decide_eq_true_iff

theorem sub8_c_iff (a b : Byte) (c : Bool) : (sub8 a b c).2.c = true ↔ a.toNat < b.toNat + c.toNat := by
  rw [← carryNat_eq]; exact decide_eq_true_iff

theorem sub8_pv_iff (a b : Byte) (c : Bool) : (sub8 a b c).2.pv = true ↔
    a.getLsbD 7 ≠ b.getLsbD 7 ∧ (sub8 a b c).1.getLsbD 7 ≠ a.getLsbD 7 :=
  (Bool.and_eq_true_iff ..).trans (and_congr bne_iff_ne bne_iff_ne)

/-- The two forms of PV that R221 gives: operands of two signs with a difference of the second's sign. -/
theorem sub8_overflow (a b : Byte) (c : Bool) : (sub8 a b c).2.pv = true ↔
    a.toInt - b.toInt - c.toNat < -128 ∨ a.toInt - b.toInt - c.toNat > 127 := by
  have hc := c.toNat_le
  rw [sub8_pv_iff]
  simp only [getLsbD_seven, decide_eq_decide, ne_eq, toInt_byte, toNat_sub8]
  omega

/-- Settles O10, flag by flag. -/
theorem add8Flags : Obligations.Add8Flags := fun a b c =>
  ⟨toNat_add8 a b c, rfl, beq_iff_eq, rfl, rfl, add8_h_iff a b c, add8_half a b c, add8_pv_iff a b c, add8_overflow a b c, rfl,
    add8_c_iff a b c⟩

/-- Settles O11, flag by flag; a borrow is a difference below 0. -/
theorem sub8Flags : Obligations.Sub8Flags := by
  intro a b c
  have hc := c.toNat_le
  refine ⟨?result, rfl, beq_iff_eq, rfl, rfl, (sub8_h_iff a b c).trans ?half, sub8_half a b c, sub8_pv_iff a b c, sub8_overflow a b c, rfl,
    (sub8_c_iff a b c).trans ?borrow, sub8_c_iff a b c⟩
  case result => rw [toNat_sub8]; omega
  case half | borrow => omega

/-! ## LOGIC8 and CP8 (43_alu8.md R222, R223) -/

/-- 00_scope.md R12: `parity` is 1 for an even number of 1 bits; checked on all 256 bytes. -/
theorem parity_iff (v : Byte) : parity v = true ↔ ((List.range 8).countP fun k => v.getLsbD k) % 2 = 0 := by
  revert v; decide

theorem cp8_z_iff (a v : Byte) : (cp8 a v).z = true ↔ a = v := by
  have hz : (cp8 a v).z = ((sub8 a v false).1 == 0) := rfl
  rw [hz, sub8_false, beq_iff_eq, sub_eq_zero]

/-- The sign of a difference is wrong exactly when the difference overflowed. -/
theorem cp8_s_ne_pv_iff (a v : Byte) : (cp8 a v).s ≠ (cp8 a v).pv ↔ a.toInt < v.toInt := by
  have hs : (cp8 a v).s = true ↔ 128 ≤ (a.toNat + 512 - v.toNat) % 256 := by
    rw [show (cp8 a v).s = (sub8 a v false).1.getLsbD 7 from rfl, getLsbD_seven, toNat_sub8]; exact decide_eq_true_iff
  have hpv : (cp8 a v).pv = true ↔ a.toInt - v.toInt < -128 ∨ a.toInt - v.toInt > 127 := by
    rw [show (cp8 a v).pv = (sub8 a v false).2.pv from rfl, sub8_overflow, Bool.toNat_false, Nat.cast_zero, sub_zero]
  rw [toInt_byte, toInt_byte] at hpv ⊢
  rw [ne_eq, Bool.eq_iff_iff, hs, hpv]
  omega

/-- Settles O12, flag by flag. -/
theorem logicCompareFlags : Obligations.LogicCompareFlags :=
  ⟨fun _ res => ⟨rfl, beq_iff_eq, rfl, rfl, rfl, parity_iff res, rfl, rfl⟩,
    fun a v => ⟨rfl, cp8_z_iff a v, sub8_c_iff a v false, cp8_s_ne_pv_iff a v⟩⟩

/-! ## INC8 and DEC8 (43_alu8.md R224, R225) -/

/-- The carry is bit 0 of the flag byte. -/
theorem Flags.toByte_eq_or_flagBit (g : Flags) : g.toByte = ({ g with c := false } : Flags).toByte ||| flagBit g.c := by
  obtain ⟨s, z, r5, h, r3, pv, n, c⟩ := g
  revert s z r5 h r3 pv n c; decide

theorem toNat_inc8 (v : Byte) (old : Flags) : (inc8 v old).1.toNat = (v.toNat + 1) % 256 := BitVec.toNat_add v 1

theorem toNat_dec8 (v : Byte) (old : Flags) : (dec8 v old).1.toNat = (v.toNat + 255) % 256 := by
  rw [Nat.add_comm]; exact BitVec.toNat_sub v 1

theorem inc8_h_iff (v : Byte) (old : Flags) : (inc8 v old).2.h = true ↔ (inc8 v old).1.toNat % 16 = 0 := beq_iff_eq

theorem dec8_h_iff (v : Byte) (old : Flags) : (dec8 v old).2.h = true ↔ (dec8 v old).1.toNat % 16 = 15 := beq_iff_eq

theorem inc8_eq_iff (v : Byte) (old : Flags) (w : Byte) : (inc8 v old).1 = w ↔ v = w - 1 := BitVec.eq_sub_iff_add_eq.symm

theorem dec8_eq_iff (v : Byte) (old : Flags) (w : Byte) : (dec8 v old).1 = w ↔ v = w + 1 := BitVec.sub_eq_iff_eq_add

/-- The carry of before comes to the flag byte by itself, so one entry of the table serves both. -/
theorem inc8_flagByte (v : Byte) (old : Flags) : (inc8 v old).2.toByte = (inc8 v (Flags.ofByte 0)).2.toByte ||| flagBit old.c :=
  Flags.toByte_eq_or_flagBit (inc8 v old).2

/-- As `inc8_flagByte`. -/
theorem dec8_flagByte (v : Byte) (old : Flags) : (dec8 v old).2.toByte = (dec8 v (Flags.ofByte 0)).2.toByte ||| flagBit old.c :=
  Flags.toByte_eq_or_flagBit (dec8 v old).2

/-- Settles O13: each flag is a test of the result, which is undone to a test of the byte. -/
theorem incDec8Flags : Obligations.IncDec8Flags := by
  intro v old
  refine ⟨⟨toNat_inc8 v old, rfl, beq_iff_eq, beq_iff_eq.trans (inc8_eq_iff v old 0), rfl, rfl, inc8_h_iff v old,
      (inc8_h_iff v old).trans ?incHalf, beq_iff_eq, beq_iff_eq.trans (inc8_eq_iff v old 0x80), rfl, rfl, ?inc7F, ?incFF⟩,
    ⟨?decResult, rfl, beq_iff_eq, beq_iff_eq.trans (dec8_eq_iff v old 0), rfl, rfl, dec8_h_iff v old,
      (dec8_h_iff v old).trans ?decHalf, beq_iff_eq, beq_iff_eq.trans (dec8_eq_iff v old 0x7F), rfl, rfl, ?dec80, ?dec01⟩⟩
  case incHalf => rw [toNat_inc8]; omega
  case decResult | decHalf => rw [toNat_dec8]; omega
  case inc7F => rw [inc8_flagByte, show (inc8 0x7F (Flags.ofByte 0)).2.toByte = 0x94 by decide]
  case incFF => rw [inc8_flagByte, show (inc8 0xFF (Flags.ofByte 0)).2.toByte = 0x50 by decide]
  case dec80 => rw [dec8_flagByte, show (dec8 0x80 (Flags.ofByte 0)).2.toByte = 0x3E by decide]
  case dec01 => rw [dec8_flagByte, show (dec8 0x01 (Flags.ofByte 0)).2.toByte = 0x42 by decide]

end Sys2Proof.Machine
end

section
/-! PROOFS. The 8-bit operations on A, INC and DEC as whole next states (O23, O24, O25). -/

namespace Sys2Proof.Machine

/-! ## The operations on A -/

/-- R226: an operation on A with its time is one change of A, F and the counter. The answer of an instruction is matched with it by
computation: `alu8` gives the result and the flags of the operation, and the carry of before is bit 0 of F. -/
theorem State.next_alu (s : State) (k : AluOp) (v : Byte) (n : Nat) : (.next ((s.alu k v).tick n) : Result) =
    .next { s with a := (alu8 k s.a v s.flags).1, f := (alu8 k s.a v s.flags).2.toByte, tacts := s.tacts + n } := rfl

/-- Settles O23: for each operation, the operand and the time of its register, its immediate and its half form. -/
theorem aluRegister : Obligations.AluRegister :=
  ⟨fun r s => s.next_alu .add (s.reg8 r) 4, fun n s => s.next_alu .add n 7, fun xy p s => s.next_alu .add (s.half xy p) 8,
    fun r s => s.next_alu .adc (s.reg8 r) 4, fun n s => s.next_alu .adc n 7, fun xy p s => s.next_alu .adc (s.half xy p) 8,
    fun r s => s.next_alu .sub (s.reg8 r) 4, fun n s => s.next_alu .sub n 7, fun xy p s => s.next_alu .sub (s.half xy p) 8,
    fun r s => s.next_alu .sbc (s.reg8 r) 4, fun n s => s.next_alu .sbc n 7, fun xy p s => s.next_alu .sbc (s.half xy p) 8,
    fun r s => s.next_alu .and (s.reg8 r) 4, fun n s => s.next_alu .and n 7, fun xy p s => s.next_alu .and (s.half xy p) 8,
    fun r s => s.next_alu .xor (s.reg8 r) 4, fun n s => s.next_alu .xor n 7, fun xy p s => s.next_alu .xor (s.half xy p) 8,
    fun r s => s.next_alu .or (s.reg8 r) 4, fun n s => s.next_alu .or n 7, fun xy p s => s.next_alu .or (s.half xy p) 8,
    fun r s => s.next_alu .cp (s.reg8 r) 4, fun n s => s.next_alu .cp n 7, fun xy p s => s.next_alu .cp (s.half xy p) 8⟩

/-- Settles O24: the operation is done on the state after the read, which has the call on record and, for an indexed operand, its address in WZ. -/
theorem aluMemory : Obligations.AluMemory :=
  ⟨fun s => (s.memRead s.hl).2.next_alu .add _ 7, fun d s => (s.readIndexed .ix d).2.next_alu .add _ 19,
    fun d s => (s.readIndexed .iy d).2.next_alu .add _ 19,
    fun s => (s.memRead s.hl).2.next_alu .adc _ 7, fun d s => (s.readIndexed .ix d).2.next_alu .adc _ 19,
    fun d s => (s.readIndexed .iy d).2.next_alu .adc _ 19,
    fun s => (s.memRead s.hl).2.next_alu .sub _ 7, fun d s => (s.readIndexed .ix d).2.next_alu .sub _ 19,
    fun d s => (s.readIndexed .iy d).2.next_alu .sub _ 19,
    fun s => (s.memRead s.hl).2.next_alu .sbc _ 7, fun d s => (s.readIndexed .ix d).2.next_alu .sbc _ 19,
    fun d s => (s.readIndexed .iy d).2.next_alu .sbc _ 19,
    fun s => (s.memRead s.hl).2.next_alu .and _ 7, fun d s => (s.readIndexed .ix d).2.next_alu .and _ 19,
    fun d s => (s.readIndexed .iy d).2.next_alu .and _ 19,
    fun s => (s.memRead s.hl).2.next_alu .xor _ 7, fun d s => (s.readIndexed .ix d).2.next_alu .xor _ 19,
    fun d s => (s.readIndexed .iy d).2.next_alu .xor _ 19,
    fun s => (s.memRead s.hl).2.next_alu .or _ 7, fun d s => (s.readIndexed .ix d).2.next_alu .or _ 19,
    fun d s => (s.readIndexed .iy d).2.next_alu .or _ 19,
    fun s => (s.memRead s.hl).2.next_alu .cp _ 7, fun d s => (s.readIndexed .ix d).2.next_alu .cp _ 19,
    fun d s => (s.readIndexed .iy d).2.next_alu .cp _ 19⟩

/-! ## INC and DEC -/

theorem State.setFlags_setReg8 (s : State) (r : Reg8) (v : Byte) (g : Flags) : (s.setReg8 r v).setFlags g = (s.setFlags g).setReg8 r v := by
  cases r <;> rfl

theorem State.setFlags_setHalf (s : State) (xy : IndexReg) (p : Half) (v : Byte) (g : Flags) :
    (s.setHalf xy p v).setFlags g = (s.setFlags g).setHalf xy p v := by
  cases xy <;> cases p <;> rfl

/-- The new byte of a register, its flags and its time: the register may be written last. -/
theorem State.next_setReg8 (s : State) (r : Reg8) (p : Byte × Flags) (n : Nat) : (.next (((s.setReg8 r p.1).setFlags p.2).tick n) : Result) =
    .next (({ s with f := p.2.toByte, tacts := s.tacts + n } : State).setReg8 r p.1) := by
  rw [State.setFlags_setReg8, State.tick_setReg8]; rfl

/-- As `State.next_setReg8`, for a half of an index register. -/
theorem State.next_setHalf (s : State) (xy : IndexReg) (q : Half) (p : Byte × Flags) (n : Nat) :
    (.next (((s.setHalf xy q p.1).setFlags p.2).tick n) : Result) =
      .next (({ s with f := p.2.toByte, tacts := s.tacts + n } : State).setHalf xy q p.1) := by
  rw [State.setFlags_setHalf, State.tick_setHalf]; rfl

/-- R271, R275: the new byte of memory, its flags and its time, on the state after the read. -/
theorem State.next_memWrite (s : State) (a : Word) (p : Byte × Flags) (n : Nat) :
    (.next (((s.memWrite a p.1).setFlags p.2).tick n) : Result) =
      .next { s with f := p.2.toByte, mem := s.mem.store s.memMap a p.1, bus := .writeByte a p.1 :: s.bus, tacts := s.tacts + n } := rfl

/-- Settles O25: the same three forms of operand for INC and for DEC. -/
theorem incDec8 : Obligations.IncDec8 :=
  ⟨fun r s => s.next_setReg8 r (inc8 _ _) 4, fun xy p s => s.next_setHalf xy p (inc8 _ _) 8,
    fun s => (s.memRead s.hl).2.next_memWrite s.hl (inc8 _ _) 11,
    fun d s => (s.readIndexed .ix d).2.next_memWrite (s.indexAddr .ix d) (inc8 _ _) 23,
    fun d s => (s.readIndexed .iy d).2.next_memWrite (s.indexAddr .iy d) (inc8 _ _) 23,
    fun r s => s.next_setReg8 r (dec8 _ _) 4, fun xy p s => s.next_setHalf xy p (dec8 _ _) 8,
    fun s => (s.memRead s.hl).2.next_memWrite s.hl (dec8 _ _) 11,
    fun d s => (s.readIndexed .ix d).2.next_memWrite (s.indexAddr .ix d) (dec8 _ _) 23,
    fun d s => (s.readIndexed .iy d).2.next_memWrite (s.indexAddr .iy d) (dec8 _ _) 23⟩

end Sys2Proof.Machine
end

section
/-! PROOFS. CPU control as whole next states, DAA as its algorithm and as the decimal sum and difference it makes, and the one instruction that
runs after EI before a request (O26, O27, O51). -/

namespace Sys2Proof.Machine

/-! ## The next states of CPU control (44_general_control.md R291 to R303) -/

/-- A new A, its flags and its time are one change of the record. -/
theorem State.next_setAF (s : State) (p : Byte × Flags) (n : Nat) :
    (.next ((({ s with a := p.1 } : State).setFlags p.2).tick n) : Result) =
      .next { s with a := p.1, f := p.2.toByte, tacts := s.tacts + n } := rfl

/-- Settles O26. CPL and NEG change A and F; every other meaning is the record update of the statement. -/
theorem controlInstructions : Obligations.ControlInstructions := by
  refine ⟨fun _ => rfl, fun _ _ => rfl, fun s => ?cpl, fun _ => rfl, fun _ => rfl, fun _ s => ?neg, fun _ => rfl, fun _ => rfl, fun _ => rfl,
    fun _ _ _ => rfl, fun _ _ => rfl, fun _ _ => rfl⟩
  case cpl => exact s.next_setAF (~~~s.a, cplFlags (~~~s.a) s.flags) 4
  case neg => exact s.next_setAF (sub8 0 s.a false) 8

/-! ## The algorithm of DAA (44_general_control.md R290) -/

/-- R290: what `DAA` adds, or after a subtraction subtracts. -/
def daaCorrection (a : Byte) (g : Flags) : Nat :=
  (if g.h = true ∨ a.toNat % 16 > 9 then 0x06 else 0) + (if g.c = true ∨ a.toNat > 0x99 then 0x60 else 0)

theorem daaCorrection_le (a : Byte) (g : Flags) : daaCorrection a g ≤ 0x66 := by
  unfold daaCorrection
  split_ifs <;> decide

/-- The corrections of the two digits share no bit, so that joining them is adding them. -/
theorem daa8_join (a : Byte) (g : Flags) :
    ((if g.h || decide (a.toNat % 16 > 9) then 0x06 else 0x00) ||| (if g.c || decide (a.toNat > 0x99) then 0x60 else 0x00) : Byte) =
      BitVec.ofNat 8 (daaCorrection a g) := by
  simp only [daaCorrection, Bool.or_eq_true, decide_eq_true_iff]
  split_ifs <;> rfl

theorem daa8_result (a : Byte) (g : Flags) : (daa8 a g).1 =
    BitVec.ofNat 8 (if g.n = true then a.toNat + 256 - daaCorrection a g else a.toNat + daaCorrection a g) := by
  have small := daaCorrection_le a g
  simp only [daa8, daa8_join, ← BitVec.toNat_inj]
  split <;> simp only [BitVec.toNat_sub, BitVec.toNat_add, BitVec.toNat_ofNat] <;> omega

theorem daa8_c_iff (a : Byte) (g : Flags) : (daa8 a g).2.c = true ↔ g.c = true ∨ a.toNat > 0x99 :=
  (Bool.or_eq_true_iff ..).trans (or_congr Iff.rfl decide_eq_true_iff)

/-! ## The decimal sum and difference -/

/-- The packed decimal byte of a number below 100. -/
def packedDecimal (n : Nat) : Byte := BitVec.ofNat 8 (16 * (n / 10) + n % 10)

theorem toNat_packedDecimal {t u : Nat} (ht : t < 10) (hu : u < 10) : (packedDecimal (10 * t + u)).toNat = 16 * t + u := by
  rw [packedDecimal, BitVec.toNat_ofNat]
  omega

theorem exists_digits {n : Nat} (h : n < 100) : ∃ t u, t < 10 ∧ u < 10 ∧ n = 10 * t + u :=
  ⟨n / 10, n % 10, by omega, by omega, by omega⟩

/-- Decimal column arithmetic: a units column above 9 skips the six codes that are no digit and carries, and a sum above 99 leaves the byte. -/
theorem packedDecimal_columns {tens units : Nat} (ht : tens ≤ 18) (hu : units ≤ 19) : packedDecimal ((10 * tens + units) % 100) =
    BitVec.ofNat 8 (16 * tens + units + ((if units > 9 then 0x06 else 0) + (if 10 * tens + units > 99 then 0x60 else 0))) := by
  have high : (10 * tens + units) % 100 / 10 + (if 10 * tens + units > 99 then 10 else 0) = tens + if units > 9 then 1 else 0 := by
    split_ifs <;> omega
  have low : (10 * tens + units) % 100 % 10 + (if units > 9 then 10 else 0) = units := by
    split_ifs <;> omega
  rw [packedDecimal, ← BitVec.toNat_inj, BitVec.toNat_ofNat, BitVec.toNat_ofNat]
  split_ifs at high low ⊢ <;> omega

section
variable {x₁ x₀ y₁ y₀ : Nat} (hx₁ : x₁ < 10) (hx₀ : x₀ < 10) (hy₁ : y₁ < 10) (hy₀ : y₀ < 10) (c : Bool)
include hx₁ hx₀ hy₁ hy₀

/-- After an addition, the low digit is corrected when the units column is above 9, the high digit when the sum is above 99. -/
theorem daa_corrects_add8 :
    let p := add8 (packedDecimal (10 * x₁ + x₀)) (packedDecimal (10 * y₁ + y₀)) c
    (p.2.h = true ∨ p.1.toNat % 16 > 9 ↔ x₀ + y₀ + c.toNat > 9) ∧
      (p.2.c = true ∨ p.1.toNat > 0x99 ↔ 10 * x₁ + x₀ + (10 * y₁ + y₀) + c.toNat > 99) := by
  have hc := c.toNat_le
  intro p
  rw [add8_h_iff, add8_c_iff, toNat_add8, toNat_packedDecimal hx₁ hx₀, toNat_packedDecimal hy₁ hy₀]
  constructor <;> omega

/-- After a subtraction, the low digit is corrected when the units column borrowed, the high digit when the difference is negative. -/
theorem daa_corrects_sub8 :
    let p := sub8 (packedDecimal (10 * x₁ + x₀)) (packedDecimal (10 * y₁ + y₀)) c
    (p.2.h = true ∨ p.1.toNat % 16 > 9 ↔ x₀ < y₀ + c.toNat) ∧
      (p.2.c = true ∨ p.1.toNat > 0x99 ↔ 10 * x₁ + x₀ < 10 * y₁ + y₀ + c.toNat) := by
  have hc := c.toNat_le
  intro p
  rw [sub8_h_iff, sub8_c_iff, toNat_sub8, toNat_packedDecimal hx₁ hx₀, toNat_packedDecimal hy₁ hy₀]
  constructor <;> omega

end

/-- The corrections of `DAA` are those of the decimal columns. -/
theorem daa8_add8_packedDecimal {x y : Nat} (hx : x < 100) (hy : y < 100) (c : Bool) :
    let p := add8 (packedDecimal x) (packedDecimal y) c
    (daa8 p.1 p.2).1 = packedDecimal ((x + y + c.toNat) % 100) ∧ ((daa8 p.1 p.2).2.c = true ↔ x + y + c.toNat > 99) := by
  have hc := c.toNat_le
  obtain ⟨x₁, x₀, hx₁, hx₀, rfl⟩ := exists_digits hx
  obtain ⟨y₁, y₀, hy₁, hy₀, rfl⟩ := exists_digits hy
  obtain ⟨low, high⟩ := daa_corrects_add8 hx₁ hx₀ hy₁ hy₀ c
  refine ⟨?_, (daa8_c_iff _ _).trans high⟩
  have columns : 10 * x₁ + x₀ + (10 * y₁ + y₀) + c.toNat = 10 * (x₁ + y₁) + (x₀ + y₀ + c.toNat) := by omega
  rw [columns] at high ⊢
  rw [daa8_result, show (add8 _ _ c).2.n = false from rfl, if_neg Bool.false_ne_true, packedDecimal_columns (by omega) (by omega)]
  simp only [daaCorrection, low, high]
  rw [toNat_add8, toNat_packedDecimal hx₁ hx₀, toNat_packedDecimal hy₁ hy₀, ← BitVec.toNat_inj, BitVec.toNat_ofNat, BitVec.toNat_ofNat]
  omega

/-- The columns are those of the difference with 100 lent to it: one that borrows is one not above 9, so `DAA` takes away the correction that
the column lacks. -/
theorem daa8_sub8_packedDecimal {x y : Nat} (hx : x < 100) (hy : y < 100) (c : Bool) :
    let p := sub8 (packedDecimal x) (packedDecimal y) c
    (daa8 p.1 p.2).1 = packedDecimal ((x + 100 - y - c.toNat) % 100) ∧ ((daa8 p.1 p.2).2.c = true ↔ x < y + c.toNat) := by
  have hc := c.toNat_le
  obtain ⟨x₁, x₀, hx₁, hx₀, rfl⟩ := exists_digits hx
  obtain ⟨y₁, y₀, hy₁, hy₀, rfl⟩ := exists_digits hy
  obtain ⟨low, high⟩ := daa_corrects_sub8 hx₁ hx₀ hy₁ hy₀ c
  refine ⟨?_, (daa8_c_iff _ _).trans high⟩
  have columns : 10 * x₁ + x₀ + 100 - (10 * y₁ + y₀) - c.toNat = 10 * (x₁ + 9 - y₁) + (x₀ + 10 - (y₀ + c.toNat)) := by omega
  rw [columns, daa8_result, show (sub8 _ _ c).2.n = true from rfl, if_pos rfl, packedDecimal_columns (by omega) (by omega)]
  simp only [daaCorrection, low, high]
  rw [toNat_sub8, toNat_packedDecimal hx₁ hx₀, toNat_packedDecimal hy₁ hy₀, ← BitVec.toNat_inj, BitVec.toNat_ofNat, BitVec.toNat_ofNat]
  split_ifs <;> omega

/-- Settles O27: the result of the algorithm as a number, then the decimal sum and difference, column by column. -/
theorem decimalAdjust : Obligations.DecimalAdjust := by
  refine ⟨fun s => ?next, fun x y c => daa8_add8_packedDecimal x.isLt y.isLt c,
    fun x y c => daa8_sub8_packedDecimal x.isLt y.isLt c⟩
  intro low corr res
  have hres : (daa8 s.a s.flags).1 = res := daa8_result s.a s.flags
  rw [← hres]
  exact s.next_setAF (daa8 s.a s.flags) 4

/-! ## A request right after EI (44_general_control.md R299, 60_exceptions.md R472) -/

theorem decode_ei (rest : List Byte) : decode (0xFB :: rest) = .ok ⟨[], .ei, 1, 1⟩ :=
  (decodeFrom_opcode none rest (by decide)).trans rfl

/-- R299: what a step that fetches `EI` leaves; the window begins with the byte at PC. -/
theorem step_ei {s t : State} (hrun : s.runsInstruction) (hop : s.peek s.pc = 0xFB) (h : step s = .next t) :
    t.iff1 = true ∧ t.iff2 = true ∧ t.eiDelay = true ∧ t.pc = s.pc + 1 ∧ t.halted = s.halted ∧ t.nmiPending = s.nmiPending := by
  obtain ⟨d, n, hd, -, -, hexec⟩ := executeInstruction_next ((step_of_runs hrun).symm.trans h)
  have hwindow : s.window = s.peek s.pc :: _ := rfl
  rw [hwindow, hop, decode_ei] at hd
  cases hd
  cases hexec
  exact ⟨rfl, rfl, rfl, rfl, rfl, rfl⟩

/-- R472: under the delay no maskable request is due. -/
theorem runsInstruction_of_eiDelay {s : State} (hnmi : s.nmiPending = false) (hdelay : s.eiDelay = true) (hhalted : s.halted = false) :
    s.runsInstruction :=
  ⟨⟨hnmi, fun ⟨_, _, hdue⟩ => Bool.noConfusion (hdelay.symm.trans hdue)⟩, hhalted⟩

section
variable {s t : State} (hrun : s.runsInstruction) (h : step s = .next t)
include hrun h

/-- 10_state.md R38, R39: a step of the program neither makes nor takes a request. -/
theorem step_keeps_requests : t.intPending = s.intPending ∧ t.intBus = s.intBus ∧ t.nmiPending = s.nmiPending := by
  obtain ⟨d, n, -, -, -, hexec⟩ := executeInstruction_next ((step_of_runs hrun).symm.trans h)
  exact (exec_keeps_requests hexec :)

/-- The fetches end the delay of an earlier `EI`, so that a delay after the step is of an `EI` in this step. -/
theorem iff1_of_step_eiDelay (hdelay : t.eiDelay = true) : t.iff1 = true := by
  obtain ⟨d, n, -, -, -, hexec⟩ := executeInstruction_next ((step_of_runs hrun).symm.trans h)
  have hei : d.instr = .ei := by
    by_contra hne
    have ended : t.eiDelay = false := exec_keeps_eiDelay hexec hne
    cases ended.symm.trans hdelay
  rw [hei] at hexec
  cases hexec
  rfl

end

/-- Settles O51: under the delay that `EI` leaves a request is not due, the next instruction keeps the request, and its fetches end the delay. -/
theorem eiDelaysOneInstruction : Obligations.EiDelaysOneInstruction := by
  intro s t busByte hrun hop h
  obtain ⟨iff1, iff2, delay, pc, halted, nmi⟩ := step_ei hrun hop h
  obtain ⟨⟨hnmi, -⟩, hhalted⟩ := hrun
  have runs : (t.requestInterrupt busByte).runsInstruction := runsInstruction_of_eiDelay (nmi.trans hnmi) delay (halted.trans hhalted)
  refine ⟨iff1, iff2, delay, pc, halted.trans hhalted, runs, fun u hu => ?request, _, step_of_nmi rfl, ?accepted⟩
  case request =>
    obtain ⟨pending, bus, nmi'⟩ := step_keeps_requests runs hu
    exact ⟨pending, bus, fun hdelay henabled => ⟨nmi'.trans (nmi.trans hnmi), pending, henabled, hdelay⟩, iff1_of_step_eiDelay runs hu⟩
  case accepted =>
    rw [State.acceptNmi_eq]
    exact ⟨rfl, rfl, iff1⟩

end Sys2Proof.Machine
end

section
/-! PROOFS. 16-bit arithmetic as whole next states, with its flags as exact sums and differences (O28). -/

namespace Sys2Proof.Machine

/-! ## A word read as a signed number -/

theorem getLsbD_fifteen (v : Word) : v.getLsbD 15 = decide (32768 ≤ v.toNat) :=
  (BitVec.msb_eq_getLsbD_last v).symm.trans (BitVec.msb_eq_decide v)

theorem toInt_word (v : Word) : v.toInt = ((v.toNat : Int) + 32768) % 65536 - 32768 := by
  rw [BitVec.toInt_eq_toNat_cond]
  split <;> omega

/-! ## The sum with carry (45_alu16.md R312) -/

theorem toNat_adc16 (a b : Word) (old : Flags) : (adc16 a b old).1.toNat = (a.toNat + b.toNat + old.c.toNat) % 65536 := by
  rw [← carryNat_eq]; rfl

theorem adc16_pv_iff (a b : Word) (old : Flags) : (adc16 a b old).2.pv = true ↔
    a.getLsbD 15 = b.getLsbD 15 ∧ (adc16 a b old).1.getLsbD 15 ≠ a.getLsbD 15 :=
  (Bool.and_eq_true_iff ..).trans (and_congr beq_iff_eq bne_iff_ne)

/-- Operands of one sign have a sum of the other exactly when the signed sum leaves the 16-bit range. -/
theorem adc16_overflow (a b : Word) (old : Flags) : (adc16 a b old).2.pv =
    decide (a.toInt + b.toInt + old.c.toNat < -32768 ∨ a.toInt + b.toInt + old.c.toNat > 32767) := by
  have hc := old.c.toNat_le
  rw [Bool.eq_iff_iff, adc16_pv_iff]
  simp only [getLsbD_fifteen, decide_eq_decide, decide_eq_true_iff, ne_eq, toInt_word, toNat_adc16]
  omega

theorem adc16_eq (a b : Word) (old : Flags) : adc16 a b old =
    let res : Word := BitVec.ofNat 16 (a.toNat + b.toNat + old.c.toNat)
    (res,
      { s := res.getLsbD 15, z := res == 0, r5 := res.getLsbD 13
        h := decide (a.toNat % 4096 + b.toNat % 4096 + old.c.toNat > 4095)
        r3 := res.getLsbD 11
        pv := decide (a.toInt + b.toInt + old.c.toNat < -32768 ∨ a.toInt + b.toInt + old.c.toNat > 32767)
        n := false, c := decide (a.toNat + b.toNat + old.c.toNat > 65535) }) := by
  rw [← adc16_overflow, ← carryNat_eq]; rfl

/-! ## The difference with borrow (45_alu16.md R313) -/

theorem toNat_sbc16 (a b : Word) (old : Flags) : (sbc16 a b old).1.toNat = (a.toNat + 131072 - b.toNat - old.c.toNat) % 65536 := by
  rw [← carryNat_eq]; rfl

/-- The 131,072 that the model lends to the difference is a multiple of 65,536. -/
theorem sbc16_result (a b : Word) (old : Flags) : (sbc16 a b old).1 = BitVec.ofInt 16 ((a.toNat : Int) - b.toNat - old.c.toNat) := by
  have hc := old.c.toNat_le
  rw [← BitVec.toNat_inj, toNat_sbc16, BitVec.toNat_ofInt]
  omega

/-- A borrow out of bit 11 is a difference of the low twelve bits below 0. -/
theorem sbc16_half (a b : Word) (old : Flags) : (sbc16 a b old).2.h =
    decide (((a.toNat % 4096 : Nat) : Int) - (b.toNat % 4096 : Nat) - old.c.toNat < 0) := by
  have hh : (sbc16 a b old).2.h = decide (a.toNat % 4096 < b.toNat % 4096 + old.c.toNat) := by rw [← carryNat_eq]; rfl
  rw [hh, decide_eq_decide]
  omega

theorem sbc16_borrow (a b : Word) (old : Flags) : (sbc16 a b old).2.c = decide ((a.toNat : Int) - b.toNat - old.c.toNat < 0) := by
  have hborrow : (sbc16 a b old).2.c = decide (a.toNat < b.toNat + old.c.toNat) := by rw [← carryNat_eq]; rfl
  rw [hborrow, decide_eq_decide]
  omega

theorem sbc16_pv_iff (a b : Word) (old : Flags) : (sbc16 a b old).2.pv = true ↔
    a.getLsbD 15 ≠ b.getLsbD 15 ∧ (sbc16 a b old).1.getLsbD 15 ≠ a.getLsbD 15 :=
  (Bool.and_eq_true_iff ..).trans (and_congr bne_iff_ne bne_iff_ne)

/-- Operands of two signs have a difference of the second's sign exactly when the signed difference leaves the 16-bit range. -/
theorem sbc16_overflow (a b : Word) (old : Flags) : (sbc16 a b old).2.pv =
    decide (a.toInt - b.toInt - old.c.toNat < -32768 ∨ a.toInt - b.toInt - old.c.toNat > 32767) := by
  have hc := old.c.toNat_le
  rw [Bool.eq_iff_iff, sbc16_pv_iff]
  simp only [getLsbD_fifteen, decide_eq_decide, decide_eq_true_iff, ne_eq, toInt_word, toNat_sbc16]
  omega

theorem sbc16_eq (a b : Word) (old : Flags) : sbc16 a b old =
    let res : Word := BitVec.ofInt 16 ((a.toNat : Int) - b.toNat - old.c.toNat)
    (res,
      { s := res.getLsbD 15, z := res == 0, r5 := res.getLsbD 13
        h := decide (((a.toNat % 4096 : Nat) : Int) - (b.toNat % 4096 : Nat) - old.c.toNat < 0)
        r3 := res.getLsbD 11
        pv := decide (a.toInt - b.toInt - old.c.toNat < -32768 ∨ a.toInt - b.toInt - old.c.toNat > 32767)
        n := true, c := decide ((a.toNat : Int) - b.toNat - old.c.toNat < 0) }) := by
  rw [← sbc16_result, ← sbc16_half, ← sbc16_borrow, ← sbc16_overflow]; rfl

/-! ## The next states -/

/-- Settles O28: ADC and SBC by `adc16` and `sbc16` as exact numbers, INC ss and DEC ss by one `loadPair`; `add16` is the sum and the flags of
the statement, and the steps of IX and IY are its record updates. -/
theorem arithmetic16 : Obligations.Arithmetic16 := by
  refine ⟨fun _ _ => rfl, fun ss s => ?adcHlSs, fun ss s => ?sbcHlSs, fun _ _ => rfl, fun _ _ => rfl,
    fun ss s => congrArg Host.Outcome.next (s.tick_loadPair _ ss _ 6), fun ss s => congrArg Host.Outcome.next (s.tick_loadPair _ ss _ 6),
    fun _ => rfl, fun _ => rfl, fun _ => rfl, fun _ => rfl⟩
  case adcHlSs => rw [exec, execAdcHlSs, adc16_eq]; rfl
  case sbcHlSs => rw [exec, execSbcHlSs, sbc16_eq]; rfl

end Sys2Proof.Machine
end

section
/-! PROOFS. Rotates and shifts: the results of the eight kinds and of the digit rotates as numbers with their flags, and the whole next states
(O14, O30, O29). -/

namespace Sys2Proof.Machine

/-! ## Bytes put together from parts -/

/-- Parts that share no bit add up: the low part lies below bit `n`, the high part is a multiple of 2 ^ n. -/
theorem toNat_or_of_lt {high low : Byte} (n : Nat) (hhigh : 2 ^ n ∣ high.toNat) (hlow : low.toNat < 2 ^ n) :
    (high ||| low).toNat = high.toNat + low.toNat := by
  obtain ⟨q, hq⟩ := hhigh
  rw [BitVec.toNat_or, hq, Nat.two_pow_add_eq_or_of_lt hlow]

theorem toNat_flagBit (x : Bool) : (flagBit x).toNat = x.toNat := by cases x <;> rfl

theorem toNat_getLsbD_seven (v : Byte) : (v.getLsbD 7).toNat = v.toNat / 128 := by
  rw [BitVec.getLsbD, Nat.toNat_testBit]; omega

theorem toNat_getLsbD_zero (v : Byte) : (v.getLsbD 0).toNat = v.toNat % 2 := by
  rw [BitVec.getLsbD, Nat.toNat_testBit]; omega

theorem toNat_shiftLeft_one (v : Byte) : (v <<< 1).toNat = v.toNat * 2 % 256 := by
  rw [BitVec.toNat_shiftLeft, Nat.shiftLeft_eq]

theorem toNat_shiftRight_one (v : Byte) : (v >>> 1).toNat = v.toNat / 2 := by
  rw [BitVec.toNat_ushiftRight, Nat.shiftRight_eq_div_pow]

theorem toNat_flagBit_shiftLeft (x : Bool) : (flagBit x <<< 7).toNat = 128 * x.toNat := by cases x <;> rfl

/-- A move to the left takes in a bit at the bottom. -/
theorem toNat_shiftLeft_or_flagBit (v : Byte) (x : Bool) : ((v <<< 1) ||| flagBit x).toNat = v.toNat * 2 % 256 + x.toNat := by
  have hx := x.toNat_le
  rw [toNat_or_of_lt 1, toNat_shiftLeft_one, toNat_flagBit]
  · rw [toNat_shiftLeft_one]; omega
  · rw [toNat_flagBit]; omega

/-- A move to the right takes in a bit at the top. -/
theorem toNat_shiftRight_or_flagBit (v : Byte) (x : Bool) : ((v >>> 1) ||| (flagBit x <<< 7)).toNat = v.toNat / 2 + 128 * x.toNat := by
  rw [BitVec.or_comm, toNat_or_of_lt 7, toNat_shiftRight_one, toNat_flagBit_shiftLeft, Nat.add_comm]
  · rw [toNat_flagBit_shiftLeft]; exact Nat.dvd_mul_right ..
  · rw [toNat_shiftRight_one]; omega

/-! ## ROT (46_rotate_shift.md R330) -/

theorem toNat_rotate_rlc (v : Byte) (cin : Bool) : (rotate .rlc v cin).1.toNat = v.toNat * 2 % 256 + v.toNat / 128 :=
  toNat_getLsbD_seven v ▸ toNat_shiftLeft_or_flagBit v _

theorem toNat_rotate_rrc (v : Byte) (cin : Bool) : (rotate .rrc v cin).1.toNat = v.toNat / 2 + 128 * (v.toNat % 2) :=
  toNat_getLsbD_zero v ▸ toNat_shiftRight_or_flagBit v _

theorem toNat_rotate_rl (v : Byte) (cin : Bool) : (rotate .rl v cin).1.toNat = v.toNat * 2 % 256 + cin.toNat :=
  toNat_shiftLeft_or_flagBit v cin

theorem toNat_rotate_rr (v : Byte) (cin : Bool) : (rotate .rr v cin).1.toNat = v.toNat / 2 + 128 * cin.toNat :=
  toNat_shiftRight_or_flagBit v cin

theorem toNat_rotate_sra (v : Byte) (cin : Bool) : (rotate .sra v cin).1.toNat = v.toNat / 2 + 128 * (v.toNat / 128) :=
  toNat_getLsbD_seven v ▸ toNat_shiftRight_or_flagBit v _

/-- The flag byte of ROT is made from the result alone, but for the carry. -/
theorem rot_flags (k : RotKind) (v : Byte) (cin : Bool) :
    let res := (rot k v cin).1
    let fl := (rot k v cin).2
    fl.s = res.getLsbD 7 ∧ (fl.z = true ↔ res = 0) ∧ fl.r5 = res.getLsbD 5 ∧ fl.r3 = res.getLsbD 3 ∧ fl.h = false ∧ fl.n = false ∧
    (fl.pv = true ↔ ((List.range 8).countP fun j => res.getLsbD j) % 2 = 0) :=
  ⟨rfl, beq_iff_eq, rfl, rfl, rfl, rfl, parity_iff _⟩

/-- Settles O14: the number of each kind, with the bit shifted out as R330's table has it, and the flags of every kind at once. -/
theorem rotateFlags : Obligations.RotateFlags := fun v cin =>
  ⟨⟨toNat_rotate_rlc v cin, rfl⟩, ⟨toNat_rotate_rrc v cin, rfl⟩, ⟨toNat_rotate_rl v cin, rfl⟩, ⟨toNat_rotate_rr v cin, rfl⟩,
    ⟨toNat_shiftLeft_one v, rfl⟩, ⟨toNat_rotate_sra v cin, rfl⟩, ⟨toNat_shiftLeft_or_flagBit v true, rfl⟩, ⟨toNat_shiftRight_one v, rfl⟩,
    fun k => rot_flags k v cin⟩

/-! ## The rotates of A (46_rotate_shift.md R331 to R334) -/

/-- A byte with its value known as a number is the byte of that number. -/
theorem eq_ofNat_of_toNat_eq {v : Byte} {n : Nat} (h : v.toNat = n) : v = BitVec.ofNat 8 n := by
  rw [← h, BitVec.ofNat_toNat, BitVec.setWidth_eq]

/-- A one-byte rotate, once its result is known as a number: A, the flags other than S, Z and PV, and the time. -/
theorem State.next_rotateA (s : State) (k : RotKind) {n : Nat} (h : (rotate k s.a s.flags.c).1.toNat = n) :
    (.next ((s.rotateA k).tick 4) : Result) =
      .next { s with
        a := BitVec.ofNat 8 n
        f := ({ s.flags with r5 := (BitVec.ofNat 8 n).getLsbD 5, h := false, r3 := (BitVec.ofNat 8 n).getLsbD 3, n := false,
                             c := (rotate k s.a s.flags.c).2 } : Flags).toByte
        tacts := s.tacts + 4 } := by
  rw [← eq_ofNat_of_toNat_eq h]; rfl

/-! ## RLD and RRD (46_rotate_shift.md R360, R361) -/

/-- The high digit of a byte, in place. -/
theorem toNat_and_F0 (v : Byte) : (v &&& 0xF0).toNat = v.toNat / 16 * 16 := by
  rw [show (0xF0 : Byte) = BitVec.allOnes 8 <<< 4 from rfl, ← BitVec.shiftLeft_ushiftRight, BitVec.toNat_shiftLeft, Nat.shiftLeft_eq,
    BitVec.toNat_ushiftRight, Nat.shiftRight_eq_div_pow]
  omega

theorem toNat_and_0F (v : Byte) : (v &&& 0x0F).toNat = v.toNat % 16 := by
  rw [BitVec.toNat_and]; exact Nat.and_two_pow_sub_one_eq_mod _ 4

theorem toNat_shiftLeft_four (v : Byte) : (v <<< 4).toNat = v.toNat % 16 * 16 := by
  rw [BitVec.toNat_shiftLeft, Nat.shiftLeft_eq]; omega

theorem toNat_shiftRight_four (v : Byte) : (v >>> 4).toNat = v.toNat / 16 := by
  rw [BitVec.toNat_ushiftRight, Nat.shiftRight_eq_div_pow]

/-- Two digits make a byte. -/
theorem digits_eq {high low : Byte} {m n : Nat} (hhigh : high.toNat = m * 16) (hlow : low.toNat = n) (hn : n < 16) :
    high ||| low = BitVec.ofNat 8 (m * 16 + n) :=
  eq_ofNat_of_toNat_eq (by rw [toNat_or_of_lt 4 (hhigh ▸ Nat.dvd_mul_left ..) (hlow ▸ hn), hhigh, hlow])

/-- The flags of the new A, with parity as a count of its 1 bits. -/
theorem szpFlags_eq (v : Byte) (old : Flags) : szpFlags v old =
    { s := v.getLsbD 7, z := v == 0, r5 := v.getLsbD 5, h := false, r3 := v.getLsbD 3,
      pv := decide (((List.range 8).countP fun k => v.getLsbD k) % 2 = 0), n := false, c := old.c } := by
  rw [show decide (((List.range 8).countP fun k => v.getLsbD k) % 2 = 0) = parity v by
    rw [Bool.eq_iff_iff, parity_iff, decide_eq_true_iff]]
  rfl

/-- Settles O30: a rotate of A by its kind's number, a digit rotate by the two bytes it makes, that of A and that of memory. -/
theorem accumulatorAndDigitRotates : Obligations.AccumulatorAndDigitRotates := by
  refine ⟨fun s => s.next_rotateA .rlc (toNat_rotate_rlc ..), fun s => s.next_rotateA .rrc (toNat_rotate_rrc ..),
    fun s => s.next_rotateA .rl (toNat_rotate_rl ..), fun s => s.next_rotateA .rr (toNat_rotate_rr ..), fun s => ?rld, fun s => ?rrd,
    szpFlags_eq⟩
  case rld =>
    intro v a w
    have ha : (s.a &&& 0xF0) ||| (v >>> 4) = a := digits_eq (toNat_and_F0 _) (toNat_shiftRight_four v) (by omega)
    have hw : (v <<< 4) ||| (s.a &&& 0x0F) = w := digits_eq (toNat_shiftLeft_four v) (toNat_and_0F _) (by omega)
    rw [← ha, ← hw]; rfl
  case rrd =>
    intro v a w
    have ha : (s.a &&& 0xF0) ||| (v &&& 0x0F) = a := digits_eq (toNat_and_F0 _) (toNat_and_0F v) (by omega)
    have hw : ((s.a &&& 0x0F) <<< 4) ||| (v >>> 4) = w :=
      digits_eq (by rw [toNat_shiftLeft_four, toNat_and_0F, Nat.mod_mod]) (toNat_shiftRight_four v) (by omega)
    rw [← ha, ← hw]; rfl

/-! ## The rotates and shifts of the CB spaces (46_rotate_shift.md R335 to R358), for any kind -/

theorem State.next_rotateReg (k : RotKind) (r : Reg8) (s : State) : (.next ((s.rotateReg k r).tick 8) : Result) =
    .next (({ s with f := (rot k (s.reg8 r) (s.f.getLsbD 0)).2.toByte, tacts := s.tacts + 8 } : State).setReg8 r
      (rot k (s.reg8 r) (s.f.getLsbD 0)).1) :=
  s.next_setReg8 r (rot k (s.reg8 r) (s.f.getLsbD 0)) 8

/-- A rotate of a byte of memory is a write on the state after the read. -/
theorem State.next_rotateHl (k : RotKind) (s : State) : (.next ((s.rotateAt k s.hl).tick 15) : Result) =
    let p := rot k (s.peek s.hl) (s.f.getLsbD 0)
    .next { s with
      f := p.2.toByte, mem := s.mem.store s.memMap s.hl p.1
      bus := .writeByte s.hl p.1 :: .readByte s.hl (s.peek s.hl) :: s.bus, tacts := s.tacts + 15 } :=
  (s.memRead s.hl).2.next_memWrite s.hl (rot k (s.peek s.hl) (s.f.getLsbD 0)) 15

/-- As `State.next_rotateHl`, with the effective address in WZ. -/
theorem State.next_rotateIndexed (k : RotKind) (xy : IndexReg) (d : Byte) (s : State) :
    let a := s.indexAddr xy d
    let p := rot k (s.peek a) (s.f.getLsbD 0)
    (.next (((s.indexed xy d).rotateAt k a).tick 23) : Result) =
      .next { s with
        f := p.2.toByte, mem := s.mem.store s.memMap a p.1, bus := .writeByte a p.1 :: .readByte a (s.peek a) :: s.bus
        wz := a, tacts := s.tacts + 23 } :=
  (s.readIndexed xy d).2.next_memWrite (s.indexAddr xy d) (rot k (s.peek (s.indexAddr xy d)) (s.f.getLsbD 0)) 23

/-- The undocumented form copies the byte that it wrote to a register, at no time of its own. -/
theorem State.next_rotateIndexed_copy (k : RotKind) (xy : IndexReg) (d : Byte) (r : Reg8) (s : State) :
    let a := s.indexAddr xy d
    let p := rot k (s.peek a) (s.f.getLsbD 0)
    (.next ((((s.indexed xy d).rotateAt k a).setReg8 r (s.rotated k a)).tick 23) : Result) =
      .next (({ s with
        f := p.2.toByte, mem := s.mem.store s.memMap a p.1, bus := .writeByte a p.1 :: .readByte a (s.peek a) :: s.bus
        wz := a, tacts := s.tacts + 23 } : State).setReg8 r p.1) := by
  intro a p
  rw [State.tick_setReg8, State.rotateAt_eq]; rfl

/-- Settles O29: each kind in its six forms; the carry that the model reads by name is bit 0 of F. -/
theorem rotates : Obligations.Rotates :=
  ⟨State.next_rotateReg .rlc, State.next_rotateHl .rlc, State.next_rotateIndexed .rlc .ix, State.next_rotateIndexed_copy .rlc .ix,
    State.next_rotateIndexed .rlc .iy, State.next_rotateIndexed_copy .rlc .iy,
    State.next_rotateReg .rrc, State.next_rotateHl .rrc, State.next_rotateIndexed .rrc .ix, State.next_rotateIndexed_copy .rrc .ix,
    State.next_rotateIndexed .rrc .iy, State.next_rotateIndexed_copy .rrc .iy,
    State.next_rotateReg .rl, State.next_rotateHl .rl, State.next_rotateIndexed .rl .ix, State.next_rotateIndexed_copy .rl .ix,
    State.next_rotateIndexed .rl .iy, State.next_rotateIndexed_copy .rl .iy,
    State.next_rotateReg .rr, State.next_rotateHl .rr, State.next_rotateIndexed .rr .ix, State.next_rotateIndexed_copy .rr .ix,
    State.next_rotateIndexed .rr .iy, State.next_rotateIndexed_copy .rr .iy,
    State.next_rotateReg .sla, State.next_rotateHl .sla, State.next_rotateIndexed .sla .ix, State.next_rotateIndexed_copy .sla .ix,
    State.next_rotateIndexed .sla .iy, State.next_rotateIndexed_copy .sla .iy,
    State.next_rotateReg .sra, State.next_rotateHl .sra, State.next_rotateIndexed .sra .ix, State.next_rotateIndexed_copy .sra .ix,
    State.next_rotateIndexed .sra .iy, State.next_rotateIndexed_copy .sra .iy,
    State.next_rotateReg .sll, State.next_rotateHl .sll, State.next_rotateIndexed .sll .ix, State.next_rotateIndexed_copy .sll .ix,
    State.next_rotateIndexed .sll .iy, State.next_rotateIndexed_copy .sll .iy,
    State.next_rotateReg .srl, State.next_rotateHl .srl, State.next_rotateIndexed .srl .ix, State.next_rotateIndexed_copy .srl .ix,
    State.next_rotateIndexed .srl .iy, State.next_rotateIndexed_copy .srl .iy⟩

end Sys2Proof.Machine
end

section
/-! PROOFS. Every instruction stands in the cell that its encoding names, so that decoding gives it back (O2), samples written out (O1). -/

namespace Sys2Proof

/-! ## Cells that are found by more than the opcode byte's register and pair fields -/

/-- An instruction without operand bytes is the same before any bytes as before zeros. -/
theorem SameCell.eq_of_plain {b1 b2 c1 c2 : Byte} {i : Instr} {e : Instr × Nat} (h : SameCell b1 b2 c1 c2 (i, 0) e) : e = (i, 0) :=
  (h.eq_of_operands rfl).symm

theorem decodeED_retn {y : Fin 8} (h : y ≠ 1) (b1 b2 : Byte) : decodeED (0x45 ||| (index3 y <<< 3)) b1 b2 = (.retn y, 0) := by
  have cell : ∀ y : Fin 8, y ≠ 1 → decodeED (0x45 ||| (index3 y <<< 3)) 0 0 = (.retn y, 0) := by decide
  exact SameCell.eq_of_plain (cell y h ▸ sameCell_decodeED _ 0 0 b1 b2)

theorem decodeED_nopEd {op : Byte} (h : edUndefined op = true) (b1 b2 : Byte) : decodeED op b1 b2 = (.nopEd op, 0) := by
  have cell : ∀ op : Byte, edUndefined op = true → decodeED op 0 0 = (.nopEd op, 0) := by decide
  exact SameCell.eq_of_plain (cell op h ▸ sameCell_decodeED op 0 0 b1 b2)

/-- R168: under DD or FD the two operand fields name `q` and `q'`, and neither is the memory operand. -/
theorem decodeXY_ldQQ (xy : IndexReg) {q q' : HalfReg} (h : (q.isHalf || q'.isHalf) = true) (b1 b2 : Byte) :
    decodeXY xy (0x40 ||| (q.code <<< 3) ||| q'.code) b1 b2 = some (.ldQQ xy q q', 0) := by
  have cell : decodeXY xy (0x40 ||| (q.code <<< 3) ||| q'.code) b1 b2 =
      if q.isHalf || q'.isHalf then some (.ldQQ xy q q', 0) else none := by
    cases q <;> cases q' <;> rfl
  exact cell.trans (if_pos h)

/-! ## Every instruction stands in its cell -/

/-- The cell of the opcode byte in the space holds the instruction, when its operand bytes stand before any others. A row or a mark is no
instruction of its own. -/
def Space.Holds (op : Byte) (operands : List Byte) (i : Instr) (rest : List Byte) : Space → Prop
  | .base => isPrefixByte op = false ∧ readCell (decodeBase op) (operands ++ rest) = (i, operands.length)
  | .cb => operands = [] ∧ decodeCB op = i
  | .ed => readCell (decodeED op) (operands ++ rest) = (i, operands.length)
  | .xy r => isPrefixByte op = false ∧
      decodeXY r op ((operands ++ rest).getD 0 0) ((operands ++ rest).getD 1 0) = some (i, operands.length)
  | .xycb r => ∃ d, operands = [d] ∧ decodeXYCB r d op = i
  | .row | .mark => False

/-- The Encoding clauses name the cells that the decoder reads: with the operand fields filled in, each opcode byte computes to its cell. -/
theorem holds_pattern {i : Instr} (h : i.wellFormed = true) (rest : List Byte) :
    i.pattern.1.Holds i.pattern.2.1 i.pattern.2.2 i rest := by
  cases i
  all_goals dsimp only [Instr.pattern, Space.Holds]
  case prefixCB | prefixDD | prefixED | prefixFD | baseRedundant => cases h
  case retn y => exact decodeED_retn (by simpa [Instr.wellFormed] using h) _ _
  case nopEd op => exact decodeED_nopEd h _ _
  case ldQQ xy q q' => exact ⟨by cases q <;> cases q' <;> rfl, decodeXY_ldQQ xy h _ _⟩
  case ldMemNnHl nn | ldMemNnA nn | ldHlMemNn nn | ldAMemNn nn | jpNn nn | callNn nn | ldIxNn nn | ldIyNn nn | ldMemNnIx nn | ldMemNnIy nn |
      ldIxMemNn nn | ldIyMemNn nn =>
    -- the decoder joins the two operand bytes, low byte first
    conv => enter [2, 2]; rw [← word_hi_lo nn]
    exact ⟨rfl, rfl⟩
  case ldDdNn dd nn =>
    conv => enter [2, 2]; rw [← word_hi_lo nn]
    cases dd <;> exact ⟨rfl, rfl⟩
  case jpCcNn cc nn | callCcNn cc nn =>
    conv => enter [2, 2]; rw [← word_hi_lo nn]
    cases cc <;> exact ⟨rfl, rfl⟩
  case ldMemNnDd dd nn | ldDdMemNn dd nn =>
    conv_rhs => rw [← word_hi_lo nn]
    cases dd <;> rfl
  case inC | outC0 | reti | ldIA | ldRA | ldAI | ldAR | rrd | rld | ldi | cpi | ini | outi | ldd | cpd | ind | outd | ldir | cpir | inir |
      otir | lddr | cpdr | indr | otdr => rfl
  case inRC r | outCR r => cases r <;> rfl
  case sbcHlSs ss | adcHlSs ss => cases ss <;> rfl
  case neg y => fin_cases y <;> rfl
  case im0 x5 x3 => cases x5 <;> cases x3 <;> rfl
  case im1 x5 | im2 x5 => cases x5 <;> rfl
  case rlcMemIx | rlcMemIy | rrcMemIx | rrcMemIy | rlMemIx | rlMemIy | rrMemIx | rrMemIy | slaMemIx | slaMemIy | sraMemIx | sraMemIy |
      sllMemIx | sllMemIy | srlMemIx | srlMemIy => exact ⟨_, rfl, rfl⟩
  case rlcMemIxR r | rlcMemIyR r | rrcMemIxR r | rrcMemIyR r | rlMemIxR r | rlMemIyR r | rrMemIxR r | rrMemIyR r | slaMemIxR r |
      slaMemIyR r | sraMemIxR r | sraMemIyR r | sllMemIxR r | sllMemIyR r | srlMemIxR r | srlMemIyR r => cases r <;> exact ⟨_, rfl, rfl⟩
  case bitBMemIx b d | bitBMemIy b d | resBMemIx b d | resBMemIy b d | setBMemIx b d | setBMemIy b d => fin_cases b <;> exact ⟨_, rfl, rfl⟩
  case bitBMemIxZ b d r | bitBMemIyZ b d r | resBMemIxR b d r | resBMemIyR b d r | setBMemIxR b d r | setBMemIyR b d r =>
    fin_cases b <;> cases r <;> exact ⟨_, rfl, rfl⟩
  case bitBR b r | resBR b r | setBR b r => fin_cases b <;> cases r <;> exact ⟨rfl, rfl⟩
  case bitBMemHl b | resBMemHl b | setBMemHl b | rst b => fin_cases b <;> exact ⟨rfl, rfl⟩
  case ldRR r r' => cases r <;> cases r' <;> exact ⟨rfl, rfl⟩
  case incR r | decR r | ldRMemHl r | ldMemHlR r | addAR r | adcAR r | subR r | sbcAR r | andR r | xorR r | orR r | cpR r | ldRN r _ | rlcR r |
      rrcR r | rlR r | rrR r | slaR r | sraR r | sllR r | srlR r | ldRMemIx r _ | ldRMemIy r _ | ldMemIxR r | ldMemIyR r =>
    cases r <;> exact ⟨rfl, rfl⟩
  case addHlSs q | incSs q | decSs q | popQq q | pushQq q | addIxPp q | addIyPp q | incP q | decP q | ldPN q _ | addAP q | adcAP q | subP q |
      sbcAP q | andP q | xorP q | orP q | cpP q => cases q <;> exact ⟨rfl, rfl⟩
  case jrCc cc _ | retCc cc => cases cc <;> exact ⟨rfl, rfl⟩
  all_goals exact ⟨rfl, rfl⟩

/-! ## Decoding an encoding -/

/-- An opcode byte with all its operand bytes after it is accepted. -/
theorem finish_eq_ok {e : Instr × Nat} {i : Instr} {operands : List Byte} (h : e = (i, operands.length)) (units : List Instr) (k : Nat)
    (rest : List Byte) : finish units k (operands ++ rest) e = .ok ⟨units, i, operands.length + k, k⟩ := by
  subst h
  rw [finish, if_pos (hasBytes_iff.mpr (by simp)), Nat.add_comm]

/-- Settles O2: the DD, FD, ED and CB bytes of a space lead the decoder to it, and there the instruction stands in its cell. -/
theorem decodeEncode : Obligations.DecodeEncode := by
  intro i rest h
  have cell := holds_pattern h rest
  unfold encode Instr.units Instr.body Instr.opcodeFetches
  generalize i.pattern = p at cell ⊢
  obtain ⟨space, op, operands⟩ := p
  cases space with
  | base =>
    obtain ⟨hop, hread⟩ := cell
    exact (decodeFrom_opcode none _ hop).trans (finish_eq_ok hread [] 1 rest)
  | cb =>
    obtain ⟨rfl, rfl⟩ := cell
    rfl
  | ed => exact finish_eq_ok cell [.prefixED none] 2 rest
  | xy r =>
    obtain ⟨hop, hread⟩ := cell
    have governed : decodeOpcode (some r) op (operands ++ rest) = .ok ⟨[], i, operands.length + 1, 1⟩ := by
      simp only [decodeOpcode, hread, finish_eq_ok rfl]
    have accepted : decodeFrom none (r.byte :: op :: (operands ++ rest)) = .ok ⟨[r.prefixUnit none], i, operands.length + 1 + 1, 2⟩ := by
      rw [decodeFrom_byte, decodeFrom_opcode _ _ hop, governed]; rfl
    cases r <;> exact accepted
  | xycb r =>
    obtain ⟨d, rfl, rfl⟩ := cell
    cases r <;> rfl
  | row => cases cell
  | mark => cases cell

/-- Settles O1: ten samples are encodings, and the last two have a DD that does not govern before one. -/
theorem decodeSampleWords : Obligations.DecodeSampleWords := by
  refine fun rest => ⟨?_, ?_, ?_, ?_, ?_, ?_, ?_, ?_, ?_, ?_, ?_, ?_⟩
  · exact decodeEncode (.ldRR .b .c) rest rfl
  · exact decodeEncode (.ldDdNn .hl 0x1234) rest rfl
  · exact decodeEncode .ldir rest rfl
  · exact decodeEncode (.addAMemIx 0x05) rest rfl
  · exact decodeEncode .halt rest rfl
  · exact decodeEncode (.sbcHlSs .de) rest rfl
  · exact decodeEncode (.sllR .a) rest rfl
  · exact decodeEncode (.setBMemIyR 7 0xFE .a) rest rfl
  · exact decodeEncode (.callCcNn .c 0x9000) rest rfl
  · exact decodeEncode (.inRC .a) rest rfl
  · exact decode_byte_byte .ix .iy (decodeEncode (.ldIyNn 0x1234) rest rfl)
  · exact decode_byte_redundant .ix rfl (decodeEncode .nop rest rfl)

end Sys2Proof
end

section
/-! PROOFS. Bit test, set and reset, jumps, calls and returns, input and output as whole next states (O31 to O36). -/

namespace Sys2Proof.Machine

/-! ## Bits (47_bit.md) -/

/-- Settles O31: a test of memory is one `testAt`, on the state with the effective address in WZ where the operand is indexed; the flags of
`bitFlags` compute to those of the statement. -/
theorem bitTests : Obligations.BitTests := by
  refine ⟨fun _ _ _ => rfl, fun b s => ?bitBMemHl, fun b d s => ?bitBMemIx, fun b d z s => ?bitBMemIxZ, fun b d s => ?bitBMemIy,
    fun b d z s => ?bitBMemIyZ⟩
  case bitBMemHl => rw [exec, execBitBMemHl, State.testAt_eq]; rfl
  case bitBMemIx => rw [exec, execBitBMemIx, State.testAt_eq]; rfl
  case bitBMemIxZ => rw [exec, execBitBMemIxZ, State.testAt_eq]; rfl
  case bitBMemIy => rw [exec, execBitBMemIy, State.testAt_eq]; rfl
  case bitBMemIyZ => rw [exec, execBitBMemIyZ, State.testAt_eq]; rfl

/-- A changed byte of memory, with the effective address in WZ. -/
theorem State.next_modifyIndexed (g : Byte → Byte) (xy : IndexReg) (d : Byte) (s : State) :
    (.next (((s.indexed xy d).modifyAt g (s.indexAddr xy d)).tick 23) : Result) = .next { s with
      mem := s.mem.store s.memMap (s.indexAddr xy d) (g (s.peek (s.indexAddr xy d))),
      bus := .writeByte (s.indexAddr xy d) (g (s.peek (s.indexAddr xy d))) :: .readByte (s.indexAddr xy d) (s.peek (s.indexAddr xy d)) :: s.bus,
      wz := s.indexAddr xy d, tacts := s.tacts + 23 } := by
  rw [State.modifyAt_eq]; rfl

/-- The undocumented form copies the byte that it wrote to a register, at no time of its own. -/
theorem State.next_modifyIndexed_copy (g : Byte → Byte) (xy : IndexReg) (d : Byte) (r : Reg8) (s : State) :
    (.next ((((s.indexed xy d).modifyAt g (s.indexAddr xy d)).setReg8 r (g (s.peek (s.indexAddr xy d)))).tick 23) : Result) = .next (({ s with
      mem := s.mem.store s.memMap (s.indexAddr xy d) (g (s.peek (s.indexAddr xy d))),
      bus := .writeByte (s.indexAddr xy d) (g (s.peek (s.indexAddr xy d))) :: .readByte (s.indexAddr xy d) (s.peek (s.indexAddr xy d)) :: s.bus,
      wz := s.indexAddr xy d, tacts := s.tacts + 23 } : State).setReg8 r (g (s.peek (s.indexAddr xy d)))) := by
  rw [State.tick_setReg8, State.modifyAt_eq]; rfl

/-- Settles O32: SET and RES are the same forms of a change of one byte; a register is written before the time is added, the statement the other
way round. -/
theorem bitSetReset : Obligations.BitSetReset :=
  ⟨fun b r s => congrArg Host.Outcome.next (s.tick_setReg8 r (setBit b (s.reg8 r)) 8), fun _ _ => rfl,
    fun b => State.next_modifyIndexed (setBit b) .ix, fun b => State.next_modifyIndexed_copy (setBit b) .ix,
    fun b => State.next_modifyIndexed (setBit b) .iy, fun b => State.next_modifyIndexed_copy (setBit b) .iy,
    fun b r s => congrArg Host.Outcome.next (s.tick_setReg8 r (resBit b (s.reg8 r)) 8), fun _ _ => rfl,
    fun b => State.next_modifyIndexed (resBit b) .ix, fun b => State.next_modifyIndexed_copy (resBit b) .ix,
    fun b => State.next_modifyIndexed (resBit b) .iy, fun b => State.next_modifyIndexed_copy (resBit b) .iy⟩

/-! ## Jumps (48_jump_call_return.md R400 to R406) -/

/-- Settles O33: a jump and an untaken branch are record updates, and the condition picks one of the two. -/
theorem jumps : Obligations.Jumps := by
  refine ⟨fun nn s => ?jpNn, fun cc nn s => ?jpCcNn, fun e s => ?jr, fun cc e s => ?jrCc, fun e s => ?djnz, fun s => ?jpHl, fun s => ?jpIx,
    fun s => ?jpIy, toNat_add_sext16⟩
  case jpNn => rw [exec, execJpNn, State.jump_eq]; rfl
  case jpCcNn =>
    rw [exec, execJpCcNn, State.jump_eq, State.emitBranch_eq]
    cases s.cond cc <;> rfl
  case jr => rw [exec, execJr, State.jump_eq]; rfl
  case jrCc =>
    rw [exec, execJrCc, State.jump_eq, State.emitBranch_eq]
    cases s.jrCond cc <;> rfl
  case djnz =>
    have counted : (s.b - 1 != 0) = (s.b != 1) := by
      rw [Bool.eq_iff_iff, bne_iff_ne, bne_iff_ne, ne_eq, ne_eq, BitVec.sub_eq_iff_eq_add]; rfl
    simp only [exec, execDjnz, State.jump_eq, State.emitBranch_eq, counted]
    by_cases h : s.b = 1
    · rw [if_pos h, if_pos h, if_pos h, bne_eq_false_iff_eq.mpr h]; rfl
    · rw [if_neg h, if_neg h, if_neg h, bne_iff_ne.mpr h]; rfl
  case jpHl => rw [exec, execJpHl, State.jump_eq]; rfl
  case jpIx => rw [exec, execJpIx, State.jump_eq]; rfl
  case jpIy => rw [exec, execJpIy, State.jump_eq]; rfl

/-! ## Calls and returns (R407 to R413) -/

/-- Settles O34: a call, a return and an untaken branch are record updates, and the condition picks one. -/
theorem callsReturns : Obligations.CallsReturns := by
  refine ⟨fun nn s => ?callNn, fun cc nn s => ?callCcNn, fun t s => ?rst, fun s => ?ret, fun cc s => ?retCc, fun s => ?reti, fun y s => ?retn⟩
  case callNn => rw [exec, execCallNn, State.call_eq]; rfl
  case callCcNn =>
    rw [exec, execCallCcNn, State.call_eq, State.emitBranch_eq]
    cases s.cond cc <;> rfl
  case rst =>
    have target : word 0 (index3 t <<< 3) = BitVec.ofNat 16 (8 * t.val) := by revert t; decide
    rw [exec, execRst, State.call_eq, target]; rfl
  case ret => rw [exec, execRet, State.returnFrom_eq]; rfl
  case retCc =>
    rw [exec, execRetCc, State.returnFrom_eq, State.emitBranch_eq]
    cases s.cond cc <;> rfl
  case reti => rw [exec, execReti, State.returnFromInterrupt_eq, State.returnFrom_eq]; rfl
  case retn => rw [exec, execRetn, State.returnFromInterrupt_eq, State.returnFrom_eq]; rfl

/-! ## Ports (49_io.md) -/

/-- Settles O35: the forms compute; `IN r,(C)` writes its register first, the statement last. -/
theorem portInstructions : Obligations.PortInstructions := by
  refine ⟨fun _ _ => rfl, fun _ _ => rfl, fun r s => ?inRC, fun _ => rfl, fun _ _ => rfl, fun _ => rfl, fun s p v rest h => ?answer⟩
  case inRC => cases r <;> rfl
  case answer => rw [State.portAnswer, h]

/-- R437: a block input or output repeats until B is zero. -/
theorem State.repeatIo_ne_zero (s : State) (b : Byte) : s.repeatIo (b != 0) =
    { s with pc := if b = 0 then s.pc else s.pc - 2, tacts := s.tacts + if b = 0 then 16 else 21 } := by
  simp only [State.repeatIo_eq, bne_iff_ne, ne_eq, ite_not]

/-- Settles O36, from what one transfer does and when it repeats; a step down is the step by -1. -/
theorem blockPorts : Obligations.BlockPorts := by
  refine ⟨fun s => ?ini, fun s => ?ind, fun s => ?inir, fun s => ?indr, fun s => ?outi, fun s => ?outd, fun s => ?otir, fun s => ?otdr⟩
  case ini => rw [exec, execIni, State.inBlock_eq]; rfl
  case ind => rw [exec, execInd, State.inBlock_eq, add_neg_one, add_neg_one]; rfl
  case inir => rw [exec, execInir, State.repeatIo_ne_zero, State.inBlock_eq]; rfl
  case indr => rw [exec, execIndr, State.repeatIo_ne_zero, State.inBlock_eq, add_neg_one, add_neg_one]; rfl
  case outi => rw [exec, execOuti, State.outBlock_eq]; rfl
  case outd => rw [exec, execOutd, State.outBlock_eq, add_neg_one, add_neg_one]; rfl
  case otir => rw [exec, execOtir, State.repeatIo_ne_zero, State.outBlock_eq]; rfl
  case otdr => rw [exec, execOtdr, State.repeatIo_ne_zero, State.outBlock_eq, add_neg_one, add_neg_one]; rfl

end Sys2Proof.Machine
end

section
/-! PROOFS. The host's reset, the acceptances as whole next states, the order of the kinds of step, and the invariant over a run (O57, O47, O48,
O49, O56). -/

namespace Sys2Proof.Machine

/-- Settles O57: `hostReset` is this record update. -/
theorem resetCall : Obligations.ResetCall := fun _ => rfl

/-! ## Acceptances -/

/-- Settles O47, from the state that an acceptance leaves. -/
theorem acceptNmi : Obligations.AcceptNmi := by
  intro s h
  rw [step_of_nmi h, State.acceptNmi_eq]; rfl

/-- A byte as an address: the target of an RST byte is its bits 5 to 3 alone (60_exceptions.md R474). -/
theorem word_zero (v : Byte) : word 0 v = BitVec.ofNat 16 v.toNat := by
  apply BitVec.eq_of_toNat_eq
  rw [toNat_word, BitVec.toNat_ofNat, Nat.mod_eq_of_lt (by omega)]
  exact Nat.zero_add _

/-- Settles O48, mode by mode; the two reads of mode 2 see the pushed bytes. -/
theorem acceptInt : Obligations.AcceptInt := by
  intro s h
  rw [step_of_int h]
  refine ⟨fun him hrst => ?im0, acceptInt_refuses, State.acceptInt_im1, State.acceptInt_im2⟩
  case im0 =>
    have rst : isRst s.intBus = true := beq_iff_eq.mpr hrst
    rw [State.acceptInt_im0 him, if_pos rst, word_zero]; rfl

/-! ## The order of the kinds of step (60_exceptions.md R470) -/

/-- A step that accepts nothing leaves the requests, and nothing but an acceptance wakes a halted core (10_state.md R34). -/
theorem step_of_acceptsNothing {s t : State} (hnone : s.acceptsNothing) (h : step s = .next t) :
    (t.intPending = s.intPending ∧ t.intBus = s.intBus ∧ t.nmiPending = s.nmiPending) ∧ (s.halted = true → t.halted = true) := by
  cases hhalt : s.halted with
  | true =>
    cases (step_of_halted hnone hhalt).symm.trans h
    exact ⟨⟨rfl, rfl, rfl⟩, fun _ => hhalt⟩
  | false => exact ⟨step_keeps_requests ⟨hnone, hhalt⟩ h, fun e => Bool.noConfusion e⟩

/-- Settles O49, by the kinds of step in their order. -/
theorem stepPriority : Obligations.StepPriority := by
  refine fun s => ⟨fun hnmi => ⟨_, step_of_nmi hnmi, ?nmi⟩, fun t hint h => ?int, step_of_halted, fun t hnone h => ?none⟩
  case nmi =>
    rw [State.acceptNmi_eq]
    exact ⟨rfl, rfl, rfl, rfl⟩
  case int =>
    obtain ⟨reads, target, n, -, rfl⟩ := State.acceptInt_next ((step_of_int hint).symm.trans h)
    exact ⟨rfl, rfl, rfl, rfl⟩
  case none =>
    obtain ⟨⟨pending, bus, nmi⟩, halted⟩ := step_of_acceptsNothing hnone h
    exact ⟨pending, bus, nmi.trans hnone.1, halted⟩

/-! ## The invariant over a run -/

/-- No call of the host but Reset() and a write of memory touches what the invariant speaks of. -/
theorem State.Inv.afterCall {s : State} (hs : s.Inv) (c : HostCall) : (s.afterCall c).Inv := by
  obtain ⟨memory, enables, delayEnabled, delayRunning⟩ := hs
  cases c with
  | reset => exact ⟨memory, fun e => Bool.noConfusion e, fun e => Bool.noConfusion e, fun e => Bool.noConfusion e⟩
  | write a v => exact ⟨Memory.wf_write memory a v, enables, delayEnabled, delayRunning⟩
  | _ => exact ⟨memory, enables, delayEnabled, delayRunning⟩

theorem Run.inv {s t : State} (hs : s.Inv) (h : Run s t) : t.Inv := by
  induction h with
  | start => exact hs
  | call c _ ih => exact ih.afterCall c
  | step _ h ih => exact invariantStep _ _ ih h

/-- Settles O56: calls and steps each keep the invariant. -/
theorem invariantRun : Obligations.InvariantRun := ⟨fun _ c hs => hs.afterCall c, fun _ _ hs h => h.inv hs⟩

end Sys2Proof.Machine
end

section
/-! PROOFS. A step of the program as the rows and the instruction that decoding finds, on the state after the fetches (O46). -/

namespace Sys2Proof

/-! ## The opcode fetches of an instruction -/

/-- The opcode that the leading prefixes lead to is fetched too. -/
theorem leadingPrefixes_lt_m1 {bytes : List Byte} {d : Decoded} (h : decode bytes = .ok d) : leadingPrefixes bytes < d.m1 := by
  have count : d.m1 = fetchCount bytes := (takes_decode h).fetches
  rw [count, fetchCount]
  exact Nat.lt_add_of_pos_right (by split_ifs <;> decide)

theorem leadingPrefixes_lt_length {bytes : List Byte} {d : Decoded} (h : decode bytes = .ok d) : leadingPrefixes bytes < bytes.length :=
  (leadingPrefixes_lt_m1 h).trans_le ((sound_decode h).opcodes.trans (takes_decode h).fits)

theorem decode_encode {i : Instr} (hi : i.wellFormed = true) : decode (encode i) = .ok ⟨i.units, i, (encode i).length, i.opcodeFetches⟩ := by
  simpa using decodeEncode i [] hi

theorem Instr.opcodeFetches_le (i : Instr) : i.opcodeFetches ≤ 2 := by
  unfold Instr.opcodeFetches; split <;> decide

theorem Instr.opcodeFetches_of_units {i : Instr} (hi : i.wellFormed = true) (hunits : i.units = []) : i.opcodeFetches = 1 := by
  have pos : 0 < i.opcodeFetches := Nat.zero_lt_of_lt (leadingPrefixes_lt_m1 (decode_encode hi))
  unfold Instr.opcodeFetches Instr.units at *
  cases h : i.pattern.1 with
  | base | row => rfl
  | mark => rw [h] at pos; cases pos
  | cb | ed | xy | xycb => rw [h] at hunits; cases hunits

namespace Machine

/-! ## The window and the bytes that stand at PC -/

theorem State.bytesAt_add (s : State) (m n : Nat) (a : Word) : ∃ more, s.bytesAt (m + n) a = s.bytesAt m a ++ more := by
  induction m generalizing s a with
  | zero => exact ⟨_, (congrArg (s.bytesAt · a) (Nat.zero_add n)).trans (List.nil_append _).symm⟩
  | succ m ih =>
    obtain ⟨more, hmore⟩ := ih (s.memRead a).2 (a + 1)
    exact ⟨more, by rw [Nat.succ_add, State.bytesAt, hmore]; rfl⟩

/-- Of two stretches of bytes from one address the longer begins with the shorter, so both decode to one instruction. -/
theorem State.decode_bytesAt_unique {s : State} {m n : Nat} {a : Word} {d e : Decoded} (hd : decode (s.bytesAt m a) = .ok d)
    (he : decode (s.bytesAt n a) = .ok e) : d = e := by
  wlog hle : m ≤ n generalizing m n d e with H
  · exact (H he hd (Nat.le_of_not_le hle)).symm
  obtain ⟨k, rfl⟩ := Nat.exists_eq_add_of_le hle
  obtain ⟨more, hmore⟩ := s.bytesAt_add m k a
  rw [hmore, decodeTotal.2.1 _ more _ hd] at he
  exact Except.ok.inj he

/-- Where bytes that decode stand at PC, the chain of prefixes ends among them. -/
theorem State.prefixesOnly_of_holdsBytes {s : State} {bytes : List Byte} {d : Decoded} (hfew : leadingPrefixes bytes < 65536)
    (hb : s.holdsBytes s.pc bytes) (hd : decode bytes = .ok d) : s.prefixesOnly = false := by
  have run : s.prefixRun bytes.length s.pc = leadingPrefixes bytes := by rw [State.prefixRun_eq, hb]
  have ends : s.prefixRun Config.prefixFuel s.pc < Config.prefixFuel :=
    calc s.prefixRun Config.prefixFuel s.pc
      _ ≤ s.prefixRun bytes.length s.pc := State.prefixRun_le_of_lt (run ▸ leadingPrefixes_lt_length hd) _
      _ < 65536 := run ▸ hfew
  exact beq_eq_false_iff_ne.mpr ends.ne

theorem step_of_decode {s : State} {bytes : List Byte} {d : Decoded} (hrun : s.runsInstruction) (hfew : leadingPrefixes bytes < 65536)
    (hb : s.holdsBytes s.pc bytes) (hd : decode bytes = .ok d) : step s = runUnits (d.prefixes ++ [d.instr]) (s.fetched d.len d.m1) := by
  have ends := State.prefixesOnly_of_holdsBytes hfew hb hd
  obtain ⟨e, he⟩ := State.window_decodes ends
  have window : decode s.window = .ok d := State.decode_bytesAt_unique he (hb.symm ▸ hd) ▸ he
  rw [step_of_runs hrun, State.executeInstruction, ends, window, if_neg Bool.false_ne_true]
  exact congrArg _ (s.fetch_eq (sound_decode hd).opcodes)

/-! ## An encoded instruction at PC -/

theorem step_of_encode {s : State} {i : Instr} (hrun : s.runsInstruction) (hi : i.wellFormed = true) (hb : s.holdsBytes s.pc (encode i)) :
    step s = runUnits (i.units ++ [i]) (s.fetched (encode i).length i.opcodeFetches) := by
  have few : leadingPrefixes (encode i) < 2 := (leadingPrefixes_lt_m1 (decode_encode hi)).trans_le i.opcodeFetches_le
  exact step_of_decode hrun (few.trans (by decide)) hb (decode_encode hi)

/-- Settles O46: the window decodes as the bytes at PC do, and an encoding decodes to its instruction. -/
theorem stepRunsDecoded : Obligations.StepRunsDecoded := by
  refine ⟨fun _ _ _ => step_of_decode, fun _ _ => step_of_encode, fun s i hrun hi hunits hb => ?alone⟩
  case alone => rw [step_of_encode hrun hi hb, hunits, Instr.opcodeFetches_of_units hi hunits, List.nil_append, runUnits_singleton]

end Machine
end Sys2Proof
end

section
/-! PROOFS. An NMI and the RETN at its vector come back to the program (O52). -/

namespace Sys2Proof.Machine

/-- The two bytes of RETN or of a duplicate are opcode fetches, and the row of ED costs nothing. -/
theorem step_retn {s : State} {y : Fin 8} (hrun : s.runsInstruction) (hy : y ≠ 1) (hb : s.holdsBytes s.pc (encode (.retn y))) :
    step s = exec (.retn y) (s.fetched 2 2) :=
  (step_of_encode hrun (by simpa [Instr.wellFormed] using hy) hb).trans
    (Result.runUnits_append [.prefixED none] [.retn y] _ _ rfl |>.trans (runUnits_singleton _ _))

/-- The top of the stack as a return reads it, where no device is. -/
theorem State.top_of_ne_device {s : State} (hlow : s.memMap.kindAt s.sp ≠ .device) (hhigh : s.memMap.kindAt (s.sp + 1) ≠ .device) :
    word (s.peekNext s.sp (s.sp + 1)) (s.peek s.sp) = word (s.mem.read (s.sp + 1)) (s.mem.read s.sp) := by
  rw [State.peekNext_of_ne_device hhigh, State.peek_of_ne_device hhigh, State.peek_of_ne_device hlow]

section
variable {s : State} (hwf : s.mem.wf = true) (hhigh : s.memMap.kindAt (s.sp - 1) = .ram) (hlow : s.memMap.kindAt (s.sp - 2) = .ram)
include hwf hhigh hlow

/-- 60_exceptions.md R477: an NMI writes two bytes, which hold PC. -/
theorem State.read_acceptNmi (a : Word) :
    s.acceptNmi.mem.read a = if a = s.sp - 2 then lo s.pc else if a = s.sp - 1 then hi s.pc else s.mem.read a := by
  rw [State.acceptNmi_eq]
  exact Memory.read_store_store hwf hhigh hlow _ _ a

/-- R477, R480: a return from the state that an NMI leaves pops the PC it pushed; the fetches before the return leave SP and memory. -/
theorem State.top_fetched_acceptNmi (len m1 : Nat) : let f := s.acceptNmi.fetched len m1
    word (f.peekNext f.sp (f.sp + 1)) (f.peek f.sp) = s.pc := by
  intro f
  have hsp : f.sp = s.sp - 2 := by simp only [f, State.acceptNmi_eq]; rfl
  have hkinds : f.memMap = s.memMap := by simp only [f, State.acceptNmi_eq]; rfl
  have hmem : f.mem = s.acceptNmi.mem := rfl
  rw [State.top_of_ne_device (by rw [hsp, hkinds, hlow]; decide) (by rw [hsp, sub_two_add_one, hkinds, hhigh]; decide), hmem, hsp, sub_two_add_one,
    State.read_acceptNmi hwf hhigh hlow, State.read_acceptNmi hwf hhigh hlow, if_neg (by bv_omega), if_pos rfl, if_pos rfl, word_hi_lo]

end

/-- Bytes of memory outlast an NMI, away from devices and from the two bytes below SP. -/
theorem State.holdsBytes_acceptNmi {s : State} {a : Word} {bytes : List Byte}
    (hkind : ∀ k < bytes.length, s.memMap.kindAt (a + BitVec.ofNat 16 k) ≠ .device)
    (haway : ∀ k < bytes.length, s.sp - 1 ≠ a + BitVec.ofNat 16 k ∧ s.sp - 2 ≠ a + BitVec.ofNat 16 k) (hb : s.holdsBytes a bytes) :
    s.acceptNmi.holdsBytes a bytes := by
  have hkinds : s.acceptNmi.memMap = s.memMap := by rw [State.acceptNmi_eq]; rfl
  have hread : ∀ k < bytes.length, s.acceptNmi.mem.read (a + BitVec.ofNat 16 k) = s.mem.read (a + BitVec.ofNat 16 k) := by
    intro k hk
    rw [State.acceptNmi_eq]
    exact (Memory.read_store_other _ _ _ _ _ (.inl (haway k hk).2.symm)).trans (Memory.read_store_other _ _ _ _ _ (.inl (haway k hk).1.symm))
  rw [State.holdsBytes, State.bytesAt_eq_map hkind] at hb
  rw [State.holdsBytes, State.bytesAt_eq_map (hkinds ▸ hkind), ← hb]
  simpa using hread

/-- Settles O52: the NMI leaves the RETN at its vector and the pushed PC on the stack, and RETN is one return. -/
theorem nmiThenRetn : Obligations.NmiThenRetn := by
  intro s y hwf hnmi hy hb hdev hdev' hhigh hlow h1 h1' h2 h2'
  have vector : ∀ k < (encode (.retn y)).length, k = 0 ∨ k = 1 := fun k hk => by
    have : k < 2 := hk
    omega
  have runs : s.acceptNmi.runsInstruction := by
    rw [State.acceptNmi_eq]
    exact ⟨⟨rfl, fun ⟨_, off, _⟩ => Bool.noConfusion off⟩, rfl⟩
  have bytes : s.acceptNmi.holdsBytes s.acceptNmi.pc (encode (.retn y)) := by
    have pc : s.acceptNmi.pc = 0x0066 := by rw [State.acceptNmi_eq]; rfl
    rw [pc]
    refine State.holdsBytes_acceptNmi (fun k hk => ?_) (fun k hk => ?_) hb <;> obtain rfl | rfl := vector k hk
    exacts [hdev, hdev', ⟨h1, h2⟩, ⟨h1', h2'⟩]
  have popped := State.top_fetched_acceptNmi hwf hhigh hlow 2 2
  refine ⟨_, _, step_of_nmi hnmi, (step_retn runs hy bytes).trans rfl, ?_⟩
  rw [State.returnFromInterrupt_eq, State.returnFrom_eq, popped, State.acceptNmi_eq]
  have : s.sp - 2 + 2 = s.sp := by bv_omega
  exact ⟨rfl, rfl, rfl, rfl, this, rfl, rfl, rfl, rfl, rfl, rfl, rfl, rfl, rfl, rfl, rfl, rfl, rfl, rfl, rfl, rfl, rfl, rfl, rfl, rfl⟩

end Sys2Proof.Machine
end

section
/-! PROOFS. The records and the time of an instruction: the debug surface and the counter are written and never read (O37, O45). -/

namespace Sys2Proof.Machine

/-! ## The branch record of an instruction, and what it is made with -/

/-- What the records of a step depend on beside its instruction, and where those of branches go (60_exceptions.md R506, R507). -/
structure RecordBase where
  opAddr : Word
  opTacts : Nat
  branchObserver : Bool
  stackObserver : Bool
  branchLog : List BranchEvent

def State.recordBase (s : State) : RecordBase := ⟨s.opAddr, s.opTacts, s.branchObserver, s.stackObserver, s.branchLog⟩

/-- An instruction of the jump group makes one branch record, any other none; none takes another address or time for records. -/
theorem exec_recordBase (i : Instr) (s : State) : ∃ t, exec i s = .next t ∧
    ((i.isBranch = false ∧ t.recordBase = s.recordBase) ∨
      (i.isBranch = true ∧ ∃ taken target, t.recordBase = { s.recordBase with branchLog := s.branchLogWith i taken target })) := by
  cases i
  case' jrCc | retCc | jpCcNn | callCcNn | djnz =>
    refine ⟨_, (apply_ite Host.Outcome.next _ _ _).symm, .inr ⟨rfl, ?_⟩⟩
    split
  case' jr | ret | jpHl | jpNn | callNn | rst | retn | reti | jpIx | jpIy => refine ⟨_, rfl, .inr ⟨rfl, ?_⟩⟩
  case jr | jpHl | jpNn | jpIx | jpIy | jrCc.isTrue | jpCcNn.isTrue | djnz.isTrue => rw [State.jump_eq]; exact ⟨_, _, rfl⟩
  case callNn | rst | callCcNn.isTrue => rw [State.call_eq]; exact ⟨_, _, rfl⟩
  case ret | retCc.isTrue => rw [State.returnFrom_eq]; exact ⟨_, _, rfl⟩
  case retn | reti => rw [State.returnFromInterrupt_eq, State.returnFrom_eq]; exact ⟨_, _, rfl⟩
  case jrCc.isFalse | retCc.isFalse | jpCcNn.isFalse | callCcNn.isFalse | djnz.isFalse => rw [State.emitBranch_eq]; exact ⟨_, _, rfl⟩
  all_goals refine ⟨_, rfl, .inl ⟨rfl, ?_⟩⟩
  all_goals simp [State.recordBase, State.memRead, State.memRead16_eq, State.readIndexed, State.memWrite16_eq, State.portRead, State.portWrite,
    State.loadPair_eq, State.pushFor_eq, State.popFor_eq, State.exchangeTop_eq, State.rotateReg, State.rotateA, State.modifyAt_eq,
    State.testAt_eq, State.rotateAt_eq, State.moveBlock_eq, State.compareBlock_eq, State.inBlock_eq, State.outBlock_eq, State.repeatBlock_eq,
    State.repeatIo_eq]

/-- Settles O37: the time is that of the frame; a row for prefixes, which is no whole instruction, takes at most 4 T-states. -/
theorem everyInstructionCompletes : Obligations.EveryInstructionCompletes := by
  intro i s
  obtain ⟨t, h, records⟩ := exec_recordBase i s
  have latched : t.opAddr = s.opAddr ∧ t.opTacts = s.opTacts := by
    obtain ⟨-, e⟩ | ⟨-, _, _, e⟩ := records <;> exact ⟨congrArg RecordBase.opAddr e, congrArg RecordBase.opTacts e⟩
  suffices time : s.tacts ≤ t.tacts ∧ t.tacts ≤ s.tacts + 23 ∧ (i.wellFormed = true → s.tacts + 4 ≤ t.tacts) from
    ⟨t, h, time.1, time.2.1, time.2.2, latched⟩
  cases hrow : i.isRow with
  | true =>
    obtain ⟨n, hn, e⟩ := exec_row hrow s
    cases h.symm.trans e
    exact ⟨Nat.le_add_right _ _, Nat.add_le_add_left (hn.trans (by decide)) _, fun hi => absurd hrow (by simp [isRow_of_wellFormed hi])⟩
  | false =>
    obtain ⟨hlow, hhigh⟩ := (frame_of_exec h).time hrow
    omega

/-! ## Runs under different observations -/

/-- What may differ about a run without its noticing: whether observers are registered, what the logs held before, and when it began. -/
structure Observation where
  branch : Bool
  stack : Bool
  branchLog : List BranchEvent
  stackLog : List StackEvent
  tacts : Nat

namespace Observation

/-- The state that differs so from one with empty logs at time 0: an observer that is absent gets nothing of the logs. -/
def on (ω : Observation) (s : State) : State :=
  { s with
    branchObserver := ω.branch && s.branchObserver, stackObserver := ω.stack && s.stackObserver
    branchLog := if ω.branch then s.branchLog ++ ω.branchLog else ω.branchLog
    stackLog := if ω.stack then s.stackLog ++ ω.stackLog else ω.stackLog
    tacts := ω.tacts + s.tacts }

section
variable (ω : Observation) (s : State)

/-! ## Records go to the logs of the observation -/

theorem branchLogWith_on (i : Instr) (taken : Bool) (target : Word) :
    (ω.on s).branchLogWith i taken target = (ω.on { s with branchLog := s.branchLogWith i taken target }).branchLog := by
  unfold State.branchLogWith on
  cases ω.branch <;> cases s.branchObserver <;> rfl

theorem stackLogWith_on (o : Origin) (access : StackAccess) (newSP : Word) :
    (ω.on s).stackLogWith o access newSP = (ω.on { s with stackLog := s.stackLogWith o access newSP }).stackLog := by
  unfold State.stackLogWith on
  cases ω.stack <;> cases s.stackObserver <;> rfl

theorem stackLogWithSp_on (i : Instr) (newSP : Word) :
    (ω.on s).stackLogWithSp i newSP = (ω.on { s with stackLog := s.stackLogWithSp i newSP }).stackLog := by
  unfold State.stackLogWithSp on
  cases ω.stack <;> cases s.stackObserver <;> rfl

/-! ## What the shared operations read is not of the observation, and they commute with it -/

@[simp] theorem on_a : (ω.on s).a = s.a := rfl
@[simp] theorem on_b : (ω.on s).b = s.b := rfl
@[simp] theorem on_c : (ω.on s).c = s.c := rfl
@[simp] theorem on_ix : (ω.on s).ix = s.ix := rfl
@[simp] theorem on_iy : (ω.on s).iy = s.iy := rfl
@[simp] theorem on_pc : (ω.on s).pc = s.pc := rfl
@[simp] theorem on_wz : (ω.on s).wz = s.wz := rfl
@[simp] theorem on_reg8 (r : Reg8) : (ω.on s).reg8 r = s.reg8 r := by cases r <;> rfl
@[simp] theorem on_pair (p : RegPair) : (ω.on s).pair p = s.pair p := by cases p <;> rfl
@[simp] theorem on_stackPair (p : StackPair) : (ω.on s).stackPair p = s.stackPair p := by cases p <;> rfl
@[simp] theorem on_half (xy : IndexReg) (p : Half) : (ω.on s).half xy p = s.half xy p := by cases xy <;> rfl
@[simp] theorem on_halfReg (xy : IndexReg) (q : HalfReg) : (ω.on s).halfReg xy q = s.halfReg xy q := by cases q <;> cases xy <;> rfl
@[simp] theorem on_indexAddr (xy : IndexReg) (d : Byte) : (ω.on s).indexAddr xy d = s.indexAddr xy d := by cases xy <;> rfl
@[simp] theorem on_cond (cc : Cond) : (ω.on s).cond cc = s.cond cc := by cases cc <;> rfl
@[simp] theorem on_jrCond (cc : JrCond) : (ω.on s).jrCond cc = s.jrCond cc := by cases cc <;> rfl
@[simp] theorem on_flags : (ω.on s).flags = s.flags := rfl
@[simp] theorem on_bc : (ω.on s).bc = s.bc := rfl
@[simp] theorem on_de : (ω.on s).de = s.de := rfl
@[simp] theorem on_hl : (ω.on s).hl = s.hl := rfl
@[simp] theorem on_peek (a : Word) : (ω.on s).peek a = s.peek a := rfl
@[simp] theorem on_relative (e : Byte) : (ω.on s).relative e = s.relative e := rfl
@[simp] theorem on_rotated (k : RotKind) (a : Word) : (ω.on s).rotated k a = s.rotated k a := rfl

@[simp] theorem on_setReg8 (r : Reg8) (v : Byte) : (ω.on s).setReg8 r v = ω.on (s.setReg8 r v) := by cases r <;> rfl
@[simp] theorem on_setStackPair (p : StackPair) (v : Word) : (ω.on s).setStackPair p v = ω.on (s.setStackPair p v) := by cases p <;> rfl
@[simp] theorem on_setHalf (xy : IndexReg) (p : Half) (v : Byte) : (ω.on s).setHalf xy p v = ω.on (s.setHalf xy p v) := by
  cases xy <;> cases p <;> rfl
@[simp] theorem on_setHalfReg (xy : IndexReg) (q : HalfReg) (v : Byte) : (ω.on s).setHalfReg xy q v = ω.on (s.setHalfReg xy q v) := by
  cases q <;> simp only [State.setHalfReg, on_setHalf] <;> rfl
@[simp] theorem on_setHl (v : Word) : (ω.on s).setHl v = ω.on (s.setHl v) := rfl
@[simp] theorem on_setDe (v : Word) : (ω.on s).setDe v = ω.on (s.setDe v) := rfl
@[simp] theorem on_setFlags (g : Flags) : (ω.on s).setFlags g = ω.on (s.setFlags g) := rfl
@[simp] theorem on_tick (n : Nat) : (ω.on s).tick n = ω.on (s.tick n) := by simp only [State.tick, on, Nat.add_assoc]
@[simp] theorem on_tickRedundant (x : Option IndexReg) : (ω.on s).tickRedundant x = ω.on (s.tickRedundant x) := by
  cases x
  · rfl
  · exact on_tick ω s _
@[simp] theorem on_alu (k : AluOp) (v : Byte) : (ω.on s).alu k v = ω.on (s.alu k v) := rfl
@[simp] theorem on_rotateReg (k : RotKind) (r : Reg8) : (ω.on s).rotateReg k r = ω.on (s.rotateReg k r) := by
  simp only [State.rotateReg, on_reg8, on_flags, on_setReg8, on_setFlags]
@[simp] theorem on_rotateA (k : RotKind) : (ω.on s).rotateA k = ω.on (s.rotateA k) := rfl

@[simp] theorem on_memRead (a : Word) : (ω.on s).memRead a = ((s.memRead a).1, ω.on (s.memRead a).2) := rfl
@[simp] theorem on_memRead16 (a : Word) : (ω.on s).memRead16 a = ((s.memRead16 a).1, ω.on (s.memRead16 a).2) := rfl
@[simp] theorem on_memWrite (a : Word) (v : Byte) : (ω.on s).memWrite a v = ω.on (s.memWrite a v) := rfl
@[simp] theorem on_indexed (xy : IndexReg) (d : Byte) : (ω.on s).indexed xy d = ω.on (s.indexed xy d) := by cases xy <;> rfl
@[simp] theorem on_readIndexed (xy : IndexReg) (d : Byte) :
    (ω.on s).readIndexed xy d = ((s.readIndexed xy d).1, ω.on (s.readIndexed xy d).2) := by cases xy <;> rfl
@[simp] theorem on_portRead (a : Word) : (ω.on s).portRead a = ((s.portRead a).1, ω.on (s.portRead a).2) := rfl
@[simp] theorem on_modifyAt (g : Byte → Byte) (a : Word) : (ω.on s).modifyAt g a = ω.on (s.modifyAt g a) := rfl
@[simp] theorem on_testAt (b : Fin 8) (a : Word) (x : Byte) : (ω.on s).testAt b a x = ω.on (s.testAt b a x) := rfl
@[simp] theorem on_rotateAt (k : RotKind) (a : Word) : (ω.on s).rotateAt k a = ω.on (s.rotateAt k a) := rfl

@[simp] theorem on_emitBranch (i : Instr) (taken : Bool) (target : Word) :
    (ω.on s).emitBranch i taken target = ω.on (s.emitBranch i taken target) := by
  simp only [State.emitBranch_eq, branchLogWith_on]; rfl
@[simp] theorem on_jump (i : Instr) (target : Word) : (ω.on s).jump i target = ω.on (s.jump i target) := by
  simp only [State.jump_eq, branchLogWith_on]; rfl
@[simp] theorem on_call (i : Instr) (target : Word) : (ω.on s).call i target = ω.on (s.call i target) := by
  simp only [State.call_eq, branchLogWith_on, stackLogWith_on]; rfl
@[simp] theorem on_returnFrom (i : Instr) : (ω.on s).returnFrom i = ω.on (s.returnFrom i) := by
  simp only [State.returnFrom_eq, branchLogWith_on, stackLogWith_on]; rfl
@[simp] theorem on_returnFromInterrupt (i : Instr) : (ω.on s).returnFromInterrupt i = ω.on (s.returnFromInterrupt i) := by
  simp only [State.returnFromInterrupt, on_returnFrom]; rfl
@[simp] theorem on_pushFor (o : Origin) (v : Word) : (ω.on s).pushFor o v = ω.on (s.pushFor o v) := by
  simp only [State.pushFor_eq, stackLogWith_on]; rfl
@[simp] theorem on_popFor (o : Origin) : (ω.on s).popFor o = ((s.popFor o).1, ω.on (s.popFor o).2) := by
  simp only [State.popFor_eq, stackLogWith_on]; rfl
@[simp] theorem on_exchangeTop (i : Instr) (v : Word) : (ω.on s).exchangeTop i v = ((s.exchangeTop i v).1, ω.on (s.exchangeTop i v).2) := by
  simp only [State.exchangeTop_eq, stackLogWith_on]; rfl
@[simp] theorem on_loadPair (i : Instr) (p : RegPair) (v : Word) : (ω.on s).loadPair i p v = ω.on (s.loadPair i p v) := by
  simp only [State.loadPair_eq, stackLogWithSp_on]
  cases p <;> rfl

@[simp] theorem on_moveBlock (delta : Word) : (ω.on s).moveBlock delta = ω.on (s.moveBlock delta) := by
  simp only [State.moveBlock_eq]; rfl
@[simp] theorem on_compareBlock (delta : Word) : (ω.on s).compareBlock delta = ω.on (s.compareBlock delta) := by
  simp only [State.compareBlock_eq]; rfl
@[simp] theorem on_inBlock (delta : Word) (addend : Byte) : (ω.on s).inBlock delta addend = ω.on (s.inBlock delta addend) := by
  simp only [State.inBlock_eq]; rfl
@[simp] theorem on_outBlock (delta : Word) : (ω.on s).outBlock delta = ω.on (s.outBlock delta) := by
  simp only [State.outBlock_eq]; rfl
@[simp] theorem on_repeatBlock (again : Bool) : (ω.on s).repeatBlock again = ω.on (s.repeatBlock again) := by
  cases again
  · exact on_tick ω s 16
  · rfl
@[simp] theorem on_repeatIo (again : Bool) : (ω.on s).repeatIo again = ω.on (s.repeatIo again) := by
  cases again
  · exact on_tick ω s 16
  · rfl

end

/-- A conditional instruction: the condition does not see the observation, and each branch commutes with it. -/
theorem exists_next_ite {ω : Observation} {c c' : Prop} [Decidable c] [Decidable c'] {x y x' y' : State}
    (hc : c' ↔ c) (hx : x' = ω.on x) (hy : y' = ω.on y) :
    ∃ t, (if c then .next x else .next y : Result) = .next t ∧ (if c' then .next x' else .next y' : Result) = .next (ω.on t) := by
  subst hx hy
  by_cases h : c
  · exact ⟨x, if_pos h, if_pos (hc.mpr h)⟩
  · exact ⟨y, if_neg h, if_neg (mt hc.mp h)⟩

/-- An instruction neither reads the debug surface nor the counter: it adds its own records and its time to what was there. -/
theorem exec_on (ω : Observation) (i : Instr) (s : State) : ∃ t, exec i s = .next t ∧ exec i (ω.on s) = .next (ω.on t) := by
  cases i
  case jrCc cc e => exact exists_next_ite (by simp) (by simp only [on_relative, on_jump]; rfl) (by simp)
  case retCc cc => exact exists_next_ite (by simp) (by simp) (by simp)
  case jpCcNn cc nn => exact exists_next_ite (by simp) (by rw [← on_tick, ← on_jump]; rfl) (by rw [← on_tick, ← on_emitBranch]; rfl)
  case callCcNn cc nn => exact exists_next_ite (by simp) (by simp) (by rw [← on_tick, ← on_emitBranch]; rfl)
  case djnz e =>
    let s' : State := { s with b := s.b - 1 }
    exact exists_next_ite Iff.rfl (congrArg (fun t : State => { t with wz := s.relative e, tacts := (ω.on s).tacts + 13 }) (on_jump ω s' _ _))
      ((congrArg (State.tick · 8) (on_emitBranch ω s' _ _ _)).trans (on_tick ..))
  all_goals refine ⟨_, rfl, congrArg Host.Outcome.next ?_⟩
  case ldIxNn | ldIyNn | ldMemBcA | ldMemDeA | ldMemNnA | ldMemNnHl | ldMemNnDd | ldMemNnIx | ldMemNnIy | ldAMemBc | ldAMemDe | ldAMemNn |
      ldHlMemNn | ldIxMemNn | ldIyMemNn | ldIA | ldRA | ldAI | ldAR | exAfAf | exx | addHlSs | addIxPp | addIyPp | adcHlSs | sbcHlSs | incIx |
      incIy | decIx | decIy | daa | cpl | rrd | rld | halt | ei | di | im0 | im1 | im2 | inAN | inC | outNA | outCR | outC0 =>
    rfl
  case ldDdMemNn | popIx | popIy | exMemSpHl | exMemSpIx | exMemSpIy | jr | inRC =>
    simp only [on_hl, on_bc, on_ix, on_iy, on_relative, on_memRead16, on_portRead, on_setReg8, on_jump, on_loadPair, on_popFor, on_exchangeTop]
    rfl
  case jpNn => rw [← on_tick, ← on_jump]; rfl
  case neg => simp only [State.setFlags, State.tick, on, Nat.add_assoc]
  all_goals simp

end Observation

/-- The state with both observers registered, empty logs and time 0. -/
def State.observed (s : State) : State :=
  { s with branchObserver := true, stackObserver := true, branchLog := [], stackLog := [], tacts := 0 }

theorem Observation.on_observed (ω : Observation) (s : State) : ω.on s.observed =
    { s.withObservers ω.branch ω.stack ω.branchLog ω.stackLog with tacts := ω.tacts } := by
  simp [Observation.on, State.observed, State.withObservers]

/-- What an instruction adds to the logs and the counter does not depend on what they were: from an observed state it makes a branch record
exactly when it is of the jump group, and leaves the observers. -/
theorem exec_observed (i : Instr) (s : State) : ∃ u, exec i s.observed = .next u ∧ u.branchObserver = true ∧ u.stackObserver = true ∧
    u.branchLog.length = if i.isBranch then 1 else 0 := by
  obtain ⟨u, hu, ⟨hi, e⟩ | ⟨hi, taken, target, e⟩⟩ := exec_recordBase i s.observed
  all_goals
    refine ⟨u, hu, congrArg RecordBase.branchObserver e, congrArg RecordBase.stackObserver e, ?_⟩
    rw [hi]
    exact congrArg (fun r => r.branchLog.length) e

/-- Settles O45: both runs are the run on the observed state, seen with different observations. -/
theorem observersChangeNothing : Obligations.ObserversChangeNothing := by
  intro i s t p q bl sl n h
  obtain ⟨u, hu, hbranch, hstack, hlen⟩ := exec_observed i s
  have run (ω : Observation) : exec i (ω.on s.observed) = .next (ω.on u) := by
    obtain ⟨u', hu', hon⟩ := ω.exec_on i s.observed
    cases hu.symm.trans hu'
    exact hon
  have ht : t = (⟨s.branchObserver, s.stackObserver, s.branchLog, s.stackLog, s.tacts⟩ : Observation).on u :=
    Host.Outcome.next.inj (h.symm.trans (by simpa [Observation.on_observed, State.withObservers] using run ⟨_, _, _, _, s.tacts⟩))
  let ω : Observation := ⟨p, q, bl, sl, n⟩
  refine ⟨(ω.on u).branchLog, (ω.on u).stackLog, ?run, ?stackLog, ?count, ?old⟩
  case run =>
    rw [ht]
    refine (congrArg (exec i) (ω.on_observed s).symm).trans ((run ω).trans ?_)
    simp [Observation.on, State.withObservers, hbranch, hstack, ω]
  case stackLog => rintro rfl; rfl
  case count => cases p <;> simp [Observation.on, ω, hlen, Nat.add_comm]
  case old => cases p <;> simp [Observation.on, ω]

end Sys2Proof.Machine
end
